-- ==== Sys2Proof/Word.lean ====
section
/-! DEFINITION. The plain values of the part: bytes, 24-bit samples, and tables of a fixed number of like cells. -/

namespace Sys2Proof

/-- One byte of a frame, a payload or a text (R188, R189). -/
abbrev Byte := BitVec 8

/-- A text: its character codes in order (R117). -/
abbrev Text := List Byte

/-- A 24-bit signed audio sample (00_scope, Audio samples). -/
abbrev Sample := BitVec 24

/-- A table of `n` like cells: seats, share points, lines, slots. -/
abbrev Tab (α : Type) (n : Nat) := Vector α n

/-- The table whose cell `i` is `f i`. -/
def Tab.gen {α : Type} {n : Nat} (f : Fin n → α) : Tab α n :=
  ⟨⟨List.ofFn f⟩, by simp⟩

/-- The table with cell `i` replaced. -/
def Tab.upd {α : Type} {n : Nat} (t : Tab α n) (i : Fin n) (v : α) : Tab α n :=
  Vector.set t i.val v i.isLt

/-- The same value in every cell. -/
def Tab.all {α : Type} (n : Nat) (v : α) : Tab α n := Vector.replicate n v

@[simp] theorem Tab.get_gen {α : Type} {n : Nat} (f : Fin n → α) (i : Fin n) :
    Vector.get (Tab.gen f) i = f i := by
  simp only [Tab.gen, Vector.get_eq_getElem, Vector.getElem_mk, List.getElem_toArray, List.getElem_ofFn]

@[simp] theorem Tab.get_all {α : Type} {n : Nat} (v : α) (i : Fin n) :
    Vector.get (Tab.all n v) i = v := by
  simp only [Tab.all, Vector.get_eq_getElem, Vector.getElem_replicate]

theorem Tab.get_upd {α : Type} {n : Nat} (t : Tab α n) (i j : Fin n) (v : α) :
    Vector.get (Tab.upd t i v) j = if j = i then v else Vector.get t j := by
  have h := Vector.getElem_set (xs := t) (i := i.val) (j := j.val) (x := v) i.isLt j.isLt
  simp only [Tab.upd, Vector.get_eq_getElem]
  rw [h]
  by_cases hij : j = i
  · simp [hij]
  · have : ¬ i.val = j.val := fun e => hij (Fin.ext e.symm)
    simp [hij, this]

@[simp] theorem Tab.get_upd_self {α : Type} {n : Nat} (t : Tab α n) (i : Fin n) (v : α) :
    Vector.get (Tab.upd t i v) i = v := by
  simp [Tab.get_upd]

/-- Two tables with the same cells are the same table. -/
theorem Tab.ext_get {α : Type} {n : Nat} (t u : Tab α n) (h : ∀ i, Vector.get t i = Vector.get u i) :
    t = u := by
  apply Vector.ext
  intro i hi
  exact h ⟨i, hi⟩

/-- A number brought into `lo..hi` (00_scope, Settings). -/
def clampInt (lo hi v : Int) : Int := if v < lo then lo else if hi < v then hi else v

theorem clampInt_bounds {lo hi : Int} (h : lo ≤ hi) (v : Int) :
    lo ≤ clampInt lo hi v ∧ clampInt lo hi v ≤ hi := by
  unfold clampInt; split
  · omega
  · split <;> omega

theorem clampInt_of_mem {lo hi v : Int} (h : lo ≤ v) (h' : v ≤ hi) : clampInt lo hi v = v := by
  unfold clampInt
  rw [if_neg (by omega), if_neg (by omega)]

end Sys2Proof
end

