-- ==== Sys2Proof/Syntax.lean ====
section
/-! DEFINITION. The vocabulary of the part and its commands: one constructor of `Instr` per row of the table.
The named values stand in the order of the spec's own lists, since R189 numbers them in that order. -/

namespace Sys2Proof

abbrev Seat := Fin 64
abbrev Point := Fin 16
abbrev Line := Fin 8
abbrev Port := Fin 3
abbrev BSlot := Fin 32
abbrev PIdx := Fin 96

/-- The two branches of the table bus (R1). -/
inductive Branch
  | left | right
  deriving DecidableEq, Repr, Inhabited

/-- Presence of a seat (R5 to R8). -/
inductive Presence
  | absent | online | offline
  deriving DecidableEq, Repr, Inhabited

/-- Kind of a seat unit (R2). -/
inductive UnitKind
  | noUnit | delegate | chair | delegateShare
  deriving DecidableEq, Repr, Inhabited

/-- Level of a key (R9). -/
inductive KeyLevel
  | up | down
  deriving DecidableEq, Repr, Inhabited

/-- The keys of the seat units (R2). -/
inductive Key
  | mic | priority | next | share
  deriving DecidableEq, Repr, Inhabited

/-- An accepted edge of a key (R9). -/
inductive KeyEdge
  | press | release
  deriving DecidableEq, Repr, Inhabited

/-- MIC key mode (R10). -/
inductive KeyMode
  | toggle | pushToTalk
  deriving DecidableEq, Repr, Inhabited

/-- Delivery of a control item (R13). -/
inductive Mark
  | clear | pending | sent
  deriving DecidableEq, Repr, Inhabited

/-- What an answer acknowledges (R2). -/
inductive Ack
  | ring | plate | nothing
  deriving DecidableEq, Repr, Inhabited

/-- Floor role (02 section 2.1). -/
inductive Role
  | ordinary | chair | vice
  deriving DecidableEq, Repr, Inhabited

/-- Ring state, in the order of R36. -/
inductive Ring
  | muted | refused | liveWarn | live | head | queued | off
  deriving DecidableEq, Repr, Inhabited

/-- Origin of a speaker or queue entry (R21, R22). -/
inductive Origin
  | key | port | next | auto | voice | priority
  deriving DecidableEq, Repr, Inhabited

/-- Floor mode (R38, R50). -/
inductive FloorMode
  | openMode | request | auto | voice
  deriving DecidableEq, Repr, Inhabited

/-- Overflow policy (R26, R51). -/
inductive Overflow
  | deny | queue | bump
  deriving DecidableEq, Repr, Inhabited

/-- Priority policy (R31, R51). -/
inductive PriorityPolicy
  | duck | closeAll
  deriving DecidableEq, Repr, Inhabited

/-- Expiry action (R35). -/
inductive ExpiryAction
  | warn | close
  deriving DecidableEq, Repr, Inhabited

/-- Seating state (R20). -/
inductive Seating
  | lockedRoom | openRoom | meeting
  deriving DecidableEq, Repr, Inhabited

/-- Scope of a floor setting command (R50). -/
inductive Scope
  | now | default
  deriving DecidableEq, Repr, Inhabited

/-- Voice detector state (R82). -/
inductive DetState
  | quiet | onset | voice | hold
  deriving DecidableEq, Repr, Inhabited

/-- The wall screens (05 section 5.1). -/
inductive Screen
  | front | rear
  deriving DecidableEq, Repr, Inhabited

/-- Layout of a screen (05 section 5.1). -/
inductive Layout
  | full | split
  deriving DecidableEq, Repr, Inhabited

/-- Source setting of a slot (05 section 5.1). -/
inductive Source
  | auto | nothing | roomPc | agenda
  deriving DecidableEq, Repr, Inhabited

/-- The slots of the screens, in placement order (R100). -/
inductive SlotId
  | front0 | front1 | rear0 | rear1
  deriving DecidableEq, Repr, Inhabited

/-- Presenter policy (R99). -/
inductive PresenterPolicy
  | free | floor | chair
  deriving DecidableEq, Repr, Inhabited

/-- State of a booking (07 section 7.2). -/
inductive BState
  | scheduled | pending | awaiting | active | ending | ended | released | cancelled
  deriving DecidableEq, Repr, Inhabited

/-- Lock policy (R149). -/
inductive LockPolicy
  | locked | free
  deriving DecidableEq, Repr, Inhabited

/-- State of the room clock (R135). -/
inductive ClockState
  | unset | set | lost
  deriving DecidableEq, Repr, Inhabited

/-- Power state (09 section 9.1). -/
inductive Power
  | full | waking | quiet | sleep
  deriving DecidableEq, Repr, Inhabited

/-- Settle phase of WAKING (R171). -/
inductive Phase
  | powerSettle | enumeration | pollPass
  deriving DecidableEq, Repr, Inhabited

/-- Cause of a POWER notice (R168, R169, R171, R173, R174); `settled` is the entry to FULL, whose cause the spec does not name (log 7). -/
inductive PowerCause
  | idle | command | sleepDelay | booking | key | line | start | audioClock | settled
  deriving DecidableEq, Repr, Inhabited

/-- State of the room crystal (R173). -/
inductive RoomCrystal
  | running | stopped
  deriving DecidableEq, Repr, Inhabited

/-- State of the audio crystal (R173). -/
inductive AudioCrystal
  | running | settling | stopped
  deriving DecidableEq, Repr, Inhabited

/-- Cause in the start record (R175). -/
inductive ResetCause
  | power | pin | supply
  deriving DecidableEq, Repr, Inhabited

/-- The detectors that fire for one reset (R174, R175). -/
inductive ResetDetectors
  | power | supply | pin | powerAndSupply
  deriving DecidableEq, Repr, Inhabited

/-- Start state setting (R174). -/
inductive StartState
  | full | quiet
  deriving DecidableEq, Repr, Inhabited

/-- Direction of a line (08 section 8.1). -/
inductive Direction
  | input | output
  deriving DecidableEq, Repr, Inhabited

/-- Level of a pin (08 section 8.1). -/
inductive PinLevel
  | high | low
  deriving DecidableEq, Repr, Inhabited

/-- Function of a line (08 section 8.1). -/
inductive LineFn
  | general | sessionLamp | liveLamp | endingBlink | chime | occupancy | muteSwitch | supplyWarn
  deriving DecidableEq, Repr, Inhabited

/-- Edge choice of a line (R160). -/
inductive EdgeChoice
  | rise | fall | both
  deriving DecidableEq, Repr, Inhabited

/-- An edge of a settled level (R160). -/
inductive LineEdge
  | rise | fall
  deriving DecidableEq, Repr, Inhabited

/-- The five authorities (10 section 10.5). -/
inductive Authority
  | floor | mix | route | book | room
  deriving DecidableEq, Repr, Inhabited

/-- Notice kinds, in the order of R180. -/
inductive NoticeKind
  | floor | seat | booking | share | line | power | authority | store | clock
  deriving DecidableEq, Repr, Inhabited

/-- Result codes (10 section 10.6). -/
inductive Result
  | ok | clamped | noAuthority | unknown | badArgument | notFound | conflict | state | full | repeated | clockUnset
  deriving DecidableEq, Repr, Inhabited

/-- Presence token (R185). -/
inductive Token
  | a | b
  deriving DecidableEq, Repr, Inhabited

/-- The blocks that hold a copy of the power state (R168). -/
inductive BlockId
  | tbc | flc | mix | vdt | scr | rln
  deriving DecidableEq, Repr, Inhabited

/-- How a link frame closed (R177). -/
inductive FrameClose
  | whole | beforeAnswer | inAnswer
  deriving DecidableEq, Repr, Inhabited

/-- One value per key. -/
structure PerKey (α : Type) where
  mic : α
  priority : α
  next : α
  share : α
  deriving DecidableEq, Repr, Inhabited

def PerKey.get {α : Type} (t : PerKey α) : Key → α
  | .mic => t.mic | .priority => t.priority | .next => t.next | .share => t.share

def PerKey.upd {α : Type} (t : PerKey α) (k : Key) (v : α) : PerKey α :=
  match k with
  | .mic => { t with mic := v }
  | .priority => { t with priority := v }
  | .next => { t with next := v }
  | .share => { t with share := v }

/-- The same value for every key. -/
def PerKey.all {α : Type} (v : α) : PerKey α := ⟨v, v, v, v⟩

@[simp] theorem PerKey.get_upd {α : Type} (t : PerKey α) (k j : Key) (v : α) :
    (t.upd k v).get j = if j = k then v else t.get j := by
  cases k <;> cases j <;> rfl

/-- A gain code (00_scope, Gain codes): MUTE stands outside the numbers. -/
inductive Gain
  | mute
  | code (c : Int)
  deriving DecidableEq, Repr, Inhabited

/-- A numeric parameter; `none` is a value that is not a number where a number is wanted (R77). -/
abbrev NumArg := Option Int

/-- A seat parameter that may be ALL; `one none` is a seat number outside 0 to 63 (R15, R18, R78). -/
inductive SeatSel
  | all
  | one (seat : Option Seat)
  deriving DecidableEq, Repr, Inhabited

/-- The participant parameter of SET-ROLE (R54); `index none` is an index outside 0 to 95. -/
inductive ParticipantArg
  | keep
  | absent
  | index (p : Option PIdx)
  deriving DecidableEq, Repr, Inhabited

/-- The seat parameter of BIND-SHARE-POINT (R114). -/
inductive BindArg
  | unbind
  | to (seat : Option Seat)
  deriving DecidableEq, Repr, Inhabited

/-- The command in hand that a command row serves: its port and the number the hub gave it when it was taken. -/
structure CmdRef where
  port : Port
  tag : Nat
  deriving DecidableEq, Repr, Inhabited

/-- A poll's accepted answer (R2). -/
structure Answer where
  kind : UnitKind
  levels : PerKey KeyLevel
  shareSignal : Bool
  ack : Ack
  deriving DecidableEq, Repr, Inhabited

/-- A day and a minute of the day (00_scope, Time). -/
structure DayMinute where
  day : Nat
  minute : Nat
  deriving DecidableEq, Repr, Inhabited

/-- Minutes counted as day × 1440 + minute (R117). -/
def DayMinute.minutes (t : DayMinute) : Nat := t.day * 1440 + t.minute

/-- Attendee list, chair seat and vice seat: a seat plan (R45). -/
structure SeatPlan where
  attendees : List (Seat × PIdx) := []
  chair : Option Seat := none
  vice : Option Seat := none
  deriving DecidableEq, Repr, Inhabited

/-- A booking record (R116). -/
structure Booking where
  calRef : BitVec 32
  state : BState
  start : DayMinute
  stop : DayMinute
  title : Text
  organiser : Option PIdx
  plan : SeatPlan
  mode : Option FloorMode
  limit : Option Nat
  noShow : Nat
  checkedIn : Bool
  /-- actual end: day and second -/
  actualEnd : Option (Nat × Nat)
  deriving DecidableEq, Repr, Inhabited

/-- A participant record (R116). -/
structure Participant where
  name : Text
  note : Text
  deriving DecidableEq, Repr, Inhabited

/-- The parameters of ADD-BOOKING as the master gave them (R119); `some none` in `mode` is a value outside the four. -/
structure BookingForm where
  calRef : BitVec 32
  start : DayMinute
  stop : DayMinute
  title : Text
  organiser : Option Nat
  chair : Option Nat
  vice : Option Nat
  mode : Option (Option FloorMode)
  limit : Option Nat
  noShow : Nat
  attendees : List (Nat × Nat)
  deriving DecidableEq, Repr, Inhabited

/-- The parameters of EDIT-BOOKING (R122): `none` is a field not given. -/
structure BookingEdit where
  calRef : Option (BitVec 32) := none
  start : Option DayMinute := none
  stop : Option DayMinute := none
  title : Option Text := none
  organiser : Option (Option Nat) := none
  chair : Option (Option Nat) := none
  vice : Option (Option Nat) := none
  mode : Option (Option (Option FloorMode)) := none
  limit : Option (Option Nat) := none
  noShow : Option Nat := none
  attendees : Option (List (Nat × Nat)) := none
  deriving DecidableEq, Repr, Inhabited

/-- The parameters of SET-LINE (R163): `none` is a field not given, `some none` a value outside the field's set. -/
structure LineEdit where
  direction : Option (Option Direction) := none
  pullUp : Option (Option Bool) := none
  level : Option (Option PinLevel) := none
  released : Option (Option Bool) := none
  fn : Option (Option LineFn) := none
  edges : Option (Option EdgeChoice) := none
  notice : Option (Option Bool) := none
  wake : Option (Option Bool) := none
  deriving DecidableEq, Repr, Inhabited

/-- What a floor change carries to the Mix Engine (R37, R57). -/
structure MixFloor where
  speakers : List (Seat × Bool)
  overriding : Bool
  policy : PriorityPolicy
  deriving DecidableEq, Repr, Inhabited

/-- A speaker as the Screen Router holds it (R37). -/
structure SpeakerView where
  seat : Seat
  remaining : Option Nat
  overtime : Bool
  deriving DecidableEq, Repr, Inhabited

/-- What a floor change carries to the Screen Router (R37). -/
structure FloorView where
  speakers : List SpeakerView
  queue : List Seat
  roles : Tab Role 64
  participants : Tab (Option PIdx) 64
  enabled : Tab Bool 64
  lead : Nat
  deriving DecidableEq, Repr

/-- An activation report (R43). -/
structure Activation where
  plan : SeatPlan
  mode : Option FloorMode
  limit : Option Nat
  policy : LockPolicy
  seating : Seating
  deriving DecidableEq, Repr, Inhabited

/-- The current part of the agenda (R106). -/
structure AgendaCurrent where
  title : Text
  organiser : Option PIdx
  start : DayMinute
  stop : DayMinute
  deriving DecidableEq, Repr, Inhabited

/-- The next part of the agenda (R106). -/
structure AgendaNext where
  title : Text
  start : DayMinute
  stop : DayMinute
  deriving DecidableEq, Repr, Inhabited

/-- The agenda content (R106). -/
structure Agenda where
  current : Option AgendaCurrent := none
  next : Option AgendaNext := none
  deriving DecidableEq, Repr, Inhabited

/-- What the Booking Store tells the scheduler (R123, R153). -/
inductive BookingReport
  | added (slot : BSlot)
  | edited (slot : BSlot) (old new : SeatPlan) (titleOrOrganiser startMoved : Bool)
  | cancelled (slot : BSlot) (wasPending : Bool)
  deriving DecidableEq, Repr, Inhabited

/-- What one slot of a screen shows (R94). -/
inductive Shown
  | black
  | roomPc
  | agendaPage
  | input (point : Point)
  deriving DecidableEq, Repr, Inhabited

/-- The time shown with SPEAKING (R108). -/
inductive SpeakTime
  | noTime
  | over
  | seconds (n : Nat)
  | minutes (n : Nat)
  deriving DecidableEq, Repr, Inhabited

/-- The floor mark of a nameplate (R107). -/
inductive FloorMark
  | nothing
  | speaking (time : SpeakTime)
  | queued (position : Nat)
  deriving DecidableEq, Repr, Inhabited

/-- A link frame as it reached the part: the bytes of its request part and how it closed (R177). -/
structure Frame where
  request : List Byte
  close : FrameClose
  deriving DecidableEq, Repr, Inhabited

/-- The commands of the part: one constructor per row of spec/opcode_table.json, in its order. -/
inductive Instr
  /-- RESET (R174) -/
  | reset (detectors : ResetDetectors) (roomRuns : Bool)
  /-- POLL (R3) -/
  | poll (branch : Branch)
  /-- ACCEPTED_ANSWER (R4) -/
  | acceptedAnswer (seat : Seat) (answer : Answer)
  /-- MISSED_ANSWER (R4) -/
  | missedAnswer (seat : Seat)
  /-- SAMPLE_PERIOD (R66) -/
  | samplePeriod (mics : List (Seat × Sample)) (remote : Option Sample)
  /-- RAMP_TICK (R63) -/
  | rampTick
  /-- BLOCK (R83) -/
  | block
  /-- SECOND_EVENT (R135) -/
  | secondEvent
  /-- NO_SHOW_DEADLINE (R144) -/
  | noShowDeadline
  /-- GRACE_DEADLINE (R145) -/
  | graceDeadline
  /-- SPEECH_TIMER_EXPIRY (R35) -/
  | speechTimerExpiry
  /-- REFUSAL_FLASH_EXPIRY (R29) -/
  | refusalFlashExpiry (seat : Seat)
  /-- LOSS_TIMER_EXPIRY (R96) -/
  | lossTimerExpiry (point : Point)
  /-- FLOOR_GRACE_EXPIRY (R102) -/
  | floorGraceExpiry (point : Point)
  /-- IDLE_TIMER_EXPIRY (R167) -/
  | idleTimerExpiry
  /-- SLEEP_TIMER_EXPIRY (R169) -/
  | sleepTimerExpiry
  /-- PRESENCE_TIMER_EXPIRY (R185) -/
  | presenceTimerExpiry (port : Port)
  /-- CHIME_PULSE_END (R159) -/
  | chimePulseEnd
  /-- ENDING_BLINK_PHASE (R159) -/
  | endingBlinkPhase
  /-- LINE_SAMPLE (R160) -/
  | lineSample (levels : Tab PinLevel 8)
  /-- STORE_WRITE_END (R129) -/
  | storeWriteEnd
  /-- ROOM_CRYSTAL_STOPPED (R173) -/
  | roomCrystalStopped
  /-- ROOM_CRYSTAL_RUNNING (R173) -/
  | roomCrystalRunning
  /-- AUDIO_CRYSTAL_STOPPED (R173) -/
  | audioCrystalStopped
  /-- AUDIO_CRYSTAL_RUNNING (R173) -/
  | audioCrystalRunning
  /-- POWER_SETTLE_END (R171) -/
  | powerSettleEnd
  /-- ENUMERATION_END (R171) -/
  | enumerationEnd
  /-- KEY_EVENT (R25) -/
  | keyEvent (seat : Seat) (key : Key) (edge : KeyEdge) (mode : KeyMode)
  /-- VOICE_ONSET (R28) -/
  | voiceOnset (seat : Seat)
  /-- VOICE_END (R28) -/
  | voiceEnd (seat : Seat)
  /-- PRESENCE_REPORT_AT_FLC (R42) -/
  | presenceReportAtFlc (seat : Seat) (was now : Presence)
  /-- PRESENCE_REPORT_AT_MIX (R58) -/
  | presenceReportAtMix (seat : Seat) (now : Presence)
  /-- PRESENCE_REPORT_AT_VDT (R87) -/
  | presenceReportAtVdt (seat : Seat) (now : Presence)
  /-- PRESENCE_REPORT_AT_SCR (R97) -/
  | presenceReportAtScr (seat : Seat) (now : Presence)
  /-- FLOOR_CHANGE_AT_MIX (R57) -/
  | floorChangeAtMix (view : MixFloor)
  /-- FLOOR_CHANGE_AT_SCR (R101) -/
  | floorChangeAtScr (view : FloorView)
  /-- SPEECH_REMAINING_REPORT (R108) -/
  | speechRemainingReport (left : List (Seat × Option Nat))
  /-- ELIGIBILITY_REPORT (R87) -/
  | eligibilityReport (seat : Seat) (eligible : Bool)
  /-- ENABLED_REPORT_AT_TBC (R10) -/
  | enabledReportAtTbc (seat : Seat) (enabled : Bool)
  /-- ENABLED_REPORT_AT_SCR (R103) -/
  | enabledReportAtScr (seat : Seat) (enabled : Bool)
  /-- RING_CHANGE (R13) -/
  | ringChange (seat : Seat)
  /-- NAMEPLATE_CHANGE (R13) -/
  | nameplateChange (seat : Seat)
  /-- SHARE_KEY_EVENT (R98) -/
  | shareKeyEvent (seat : Seat)
  /-- SHARE_SIGNAL_REPORT (R96) -/
  | shareSignalReport (seat : Seat) (present : Bool)
  /-- MUTE_SWITCH_AT_MIX (R59) -/
  | muteSwitchAtMix (asserted : Bool)
  /-- MUTE_SWITCH_AT_FLC (R36) -/
  | muteSwitchAtFlc (asserted : Bool)
  /-- SUPPLY_WARNING_REPORT (R130) -/
  | supplyWarningReport (asserted : Bool)
  /-- MIC_FLAG_REPORT (R143) -/
  | micFlagReport (seat : Seat)
  /-- OCCUPANCY_EDGE (R142) -/
  | occupancyEdge (line : Line) (edge : LineEdge)
  /-- WAKE_REQUEST (R171) -/
  | wakeRequest (cause : PowerCause)
  /-- BOOKING_CURRENT_REPORT (R166) -/
  | bookingCurrentReport (current : Bool)
  /-- FLOOR_EMPTY_REPORT (R166) -/
  | floorEmptyReport (empty : Bool)
  /-- SHARE_LIST_EMPTY_REPORT (R166) -/
  | shareListEmptyReport (empty : Bool)
  /-- ACTIVATION_REPORT (R43) -/
  | activationReport (activation : Activation)
  /-- ENDING_REPORT (R44) -/
  | endingReport (policy : LockPolicy) (seating : Seating)
  /-- ATTENDEE_EDIT_REPORT (R45) -/
  | attendeeEditReport (plan : SeatPlan) (policy : LockPolicy)
  /-- SEATING_REPORT (R20) -/
  | seatingReport (seating : Seating) (inMeeting : Bool)
  /-- PARTICIPANT_DELETION_REPORT (R125) -/
  | participantDeletionReport (index : PIdx)
  /-- KEY_FLAG_CLEARING (R147) -/
  | keyFlagClearing (micOnly : Bool)
  /-- ACTIVATION_AT_SCR (R103) -/
  | activationAtScr (isEnding : Bool) (agenda : Agenda)
  /-- DROPPED_SEATS_REPORT (R103) -/
  | droppedSeatsReport (seats : List Seat)
  /-- AGENDA_REPORT (R106) -/
  | agendaReport (agenda : Agenda)
  /-- ENDING_MARK_REPORT (R148) -/
  | endingMarkReport (mark : Bool)
  /-- PARTICIPANT_EDIT_REPORT (R124) -/
  | participantEditReport (index : PIdx)
  /-- SESSION_LAMP_REPORT (R159) -/
  | sessionLampReport (on : Bool)
  /-- LIVE_LAMP_REPORT (R159) -/
  | liveLampReport (empty : Bool)
  /-- ENDING_BLINK_REPORT (R159) -/
  | endingBlinkReport (start : Bool)
  /-- CHIME_REQUEST (R159) -/
  | chimeRequest
  /-- POWER_STATE_REPORT (R168) -/
  | powerStateReport (block : BlockId) (power : Power) (phase : Option Phase)
  /-- BOOKING_REPORT (R153) -/
  | bookingReport (report : BookingReport)
  /-- NOTICE (R180) -/
  | notice (kind : NoticeKind) (payload : List Byte)
  /-- BLOCK_RESULT (R178) -/
  | blockResult (ref : CmdRef) (result : Result) (payload : List Byte)
  /-- POST (R178) -/
  | post (port : Port) (frame : Frame)
  /-- FETCH (R179) -/
  | fetch (port : Port) (frame : Frame)
  /-- PORT_RESET (R182) -/
  | portReset (port : Port) (frame : Frame)
  /-- SET_KEY_MODE (R15) -/
  | setKeyMode (ref : CmdRef) (seat : SeatSel) (mode : Option KeyMode)
  /-- SET_DEBOUNCE (R16) -/
  | setDebounce (ref : CmdRef) (polls : NumArg)
  /-- READ_SEAT (R17) -/
  | readSeat (ref : CmdRef) (first count : Nat)
  /-- CLEAR_KEY_FLAGS (R18) -/
  | clearKeyFlags (ref : CmdRef) (seat : SeatSel) (keys : Option (List Key))
  /-- GRANT (R46) -/
  | grant (ref : CmdRef) (seat : Option Seat)
  /-- GRANT_NEXT (R47) -/
  | grantNext (ref : CmdRef)
  /-- ADD_REQUEST (R48) -/
  | addRequest (ref : CmdRef) (seat : Option Seat)
  /-- CLOSE (R49) -/
  | close (ref : CmdRef) (seat : Option Seat)
  /-- CLOSE_SPEAKERS (R49) -/
  | closeSpeakers (ref : CmdRef)
  /-- CLEAR_QUEUE (R49) -/
  | clearQueue (ref : CmdRef)
  /-- SET_FLOOR_MODE (R50) -/
  | setFloorMode (ref : CmdRef) (mode : Option FloorMode) (scope : Option Scope)
  /-- SET_OPEN_LIMIT (R50) -/
  | setOpenLimit (ref : CmdRef) (limit : NumArg) (scope : Option Scope)
  /-- SET_OVERFLOW (R51) -/
  | setOverflow (ref : CmdRef) (policy : Option Overflow)
  /-- SET_PRIORITY_POLICY (R51) -/
  | setPriorityPolicy (ref : CmdRef) (policy : Option PriorityPolicy)
  /-- SET_SPEECH_LIMIT (R52) -/
  | setSpeechLimit (ref : CmdRef) (limit lead : NumArg) (action : Option ExpiryAction)
  /-- ENABLE_SEAT (R53) -/
  | enableSeat (ref : CmdRef) (seat : Option Seat) (enabled : Option Bool)
  /-- SET_ROLE (R54) -/
  | setRole (ref : CmdRef) (seat : Option Seat) (role : Option Role) (participant : ParticipantArg)
  /-- READ_FLOOR (R55) -/
  | readFloor (ref : CmdRef)
  /-- SET_MASTER (R78) -/
  | setMaster (ref : CmdRef) (value : NumArg)
  /-- SET_TRIM (R78) -/
  | setTrim (ref : CmdRef) (seat : SeatSel) (value : NumArg)
  /-- SET_SPEAKER_LEVEL (R79) -/
  | setSpeakerLevel (ref : CmdRef) (value : NumArg)
  /-- SET_SELF_DUCK (R79) -/
  | setSelfDuck (ref : CmdRef) (value : NumArg)
  /-- SET_DUCK (R79) -/
  | setDuck (ref : CmdRef) (value : NumArg)
  /-- SET_NOM (R80) -/
  | setNom (ref : CmdRef) (on : Option Bool)
  /-- SET_EXCLUSION (R80) -/
  | setExclusion (ref : CmdRef) (value : NumArg)
  /-- SET_REMOTE_GAIN (R81) -/
  | setRemoteGain (ref : CmdRef) (gain : Option Gain)
  /-- READ_METERS (R76) -/
  | readMeters (ref : CmdRef) (first count : Nat)
  /-- SET_VOICE_THRESHOLD (R91) -/
  | setVoiceThreshold (ref : CmdRef) (value : NumArg)
  /-- SET_VOICE_ONSET (R92) -/
  | setVoiceOnset (ref : CmdRef) (value : NumArg)
  /-- SET_VOICE_HOLD (R92) -/
  | setVoiceHold (ref : CmdRef) (value : NumArg)
  /-- SET_LAYOUT (R111) -/
  | setLayout (ref : CmdRef) (screen : Option Screen) (layout : Option Layout)
  /-- SET_SLOT (R111) -/
  | setSlot (ref : CmdRef) (slot : Option SlotId) (source : Option Source)
  /-- SET_CAPTION (R112) -/
  | setCaption (ref : CmdRef) (on : Option Bool)
  /-- SET_PRESENTER_POLICY (R112) -/
  | setPresenterPolicy (ref : CmdRef) (policy : Option PresenterPolicy)
  /-- SET_FLOOR_GRACE (R112) -/
  | setFloorGrace (ref : CmdRef) (seconds : NumArg)
  /-- SHARE_START (R113) -/
  | shareStart (ref : CmdRef) (point : Option Point)
  /-- SHARE_STOP (R113) -/
  | shareStop (ref : CmdRef) (point : Option Point)
  /-- APPROVE_SHARE (R113) -/
  | approveShare (ref : CmdRef) (point : Option Point) (yes : Option Bool)
  /-- BIND_SHARE_POINT (R114) -/
  | bindSharePoint (ref : CmdRef) (point : Option Point) (seat : BindArg)
  /-- READ_SCREENS (R115) -/
  | readScreens (ref : CmdRef) (first count : Nat)
  /-- ADD_BOOKING (R119) -/
  | addBooking (ref : CmdRef) (form : BookingForm)
  /-- CANCEL_BOOKING (R121) -/
  | cancelBooking (ref : CmdRef) (slot : Option BSlot)
  /-- DELETE_BOOKING (R121) -/
  | deleteBooking (ref : CmdRef) (slot : Option BSlot)
  /-- EDIT_BOOKING (R122) -/
  | editBooking (ref : CmdRef) (slot : Option BSlot) (edit : BookingEdit)
  /-- ADD_PARTICIPANT (R124) -/
  | addParticipant (ref : CmdRef) (name note : Text)
  /-- EDIT_PARTICIPANT (R124) -/
  | editParticipant (ref : CmdRef) (index : Option PIdx) (name note : Option Text)
  /-- DELETE_PARTICIPANT (R125) -/
  | deleteParticipant (ref : CmdRef) (index : Option PIdx)
  /-- READ_BOOKING (R126) -/
  | readBooking (ref : CmdRef) (slot : Option BSlot)
  /-- LIST_BOOKINGS (R126) -/
  | listBookings (ref : CmdRef) (states : List (Option BState)) (first : Nat)
  /-- READ_PARTICIPANT (R126) -/
  | readParticipant (ref : CmdRef) (first count : Nat)
  /-- SAVE_SETTINGS (R131) -/
  | saveSettings (ref : CmdRef)
  /-- SET_CLOCK (R137) -/
  | setClock (ref : CmdRef) (day second : Nat)
  /-- READ_CLOCK (R137) -/
  | readClock (ref : CmdRef)
  /-- CHECK_IN (R142) -/
  | checkIn (ref : CmdRef)
  /-- EXTEND (R151) -/
  | extend (ref : CmdRef) (slot : Option BSlot) (stop : DayMinute)
  /-- END_NOW (R152) -/
  | endNow (ref : CmdRef) (slot : Option BSlot)
  /-- SET_PRE_START_LEAD (R154) -/
  | setPreStartLead (ref : CmdRef) (minutes : NumArg)
  /-- SET_OVERRUN_GRACE (R154) -/
  | setOverrunGrace (ref : CmdRef) (minutes : NumArg)
  /-- SET_LOCK_POLICY (R154) -/
  | setLockPolicy (ref : CmdRef) (policy : Option LockPolicy)
  /-- SET_LINE (R163) -/
  | setLine (ref : CmdRef) (line : Option Line) (edit : LineEdit)
  /-- CLEAR_LINE_FLAGS (R164) -/
  | clearLineFlags (ref : CmdRef) (lines : Option (List Line))
  /-- READ_LINES (R165) -/
  | readLines (ref : CmdRef)
  /-- QUIET (R170) -/
  | quiet (ref : CmdRef)
  /-- SLEEP (R170) -/
  | sleep (ref : CmdRef)
  /-- WAKE (R172) -/
  | wake (ref : CmdRef)
  /-- SET_IDLE_TIME (R176) -/
  | setIdleTime (ref : CmdRef) (minutes : NumArg)
  /-- SET_SLEEP_DELAY (R176) -/
  | setSleepDelay (ref : CmdRef) (minutes : NumArg)
  /-- SET_START_STATE (R176) -/
  | setStartState (ref : CmdRef) (state : Option StartState)
  /-- SUBSCRIBE (R181) -/
  | subscribe (ref : CmdRef) (kinds : Option (List NoticeKind))
  /-- CLAIM (R183) -/
  | claim (ref : CmdRef) (wanted : Option (List Authority)) (window : NumArg)
  /-- RELEASE (R184) -/
  | release (ref : CmdRef) (named : Option (List Authority))
  /-- PRESENCE (R185) -/
  | presence (ref : CmdRef) (token : Option Token)
  /-- IDENTIFY (R187) -/
  | identify (ref : CmdRef)
  /-- STATUS (R187) -/
  | status (ref : CmdRef)
  deriving DecidableEq, Repr

end Sys2Proof
end

