-- ==== Sys2Proof/Config.lean ====
section
/-! DEFINITION. What the spec leaves without a value: free constants, with no body, so that no proof can rest on a number.
Each is named in notes/assumptions/7.md or 37.md. -/

namespace Sys2Proof

/-- The number of the BOOKING cause TRANSITION (R138 names the cause, no list numbers it). -/
opaque Config.bookingCauseTransition : Byte

/-- The number of the BOOKING cause CHECKED-IN (R142 names the cause, no list numbers it). -/
opaque Config.bookingCauseCheckedIn : Byte

/-- The numbers of the POWER causes (R168, R169, R171, R173, R174 name them apart, no list orders them). -/
opaque Config.powerCauseCode : PowerCause → Byte

/-- How a payload writes what a slot shows (R94 and R109 name the contents, no list numbers them). -/
opaque Config.shownCode : Shown → Byte

/-- How READ-SCREENS writes the time of a SPEAKING mark (R108 gives it as no time, OVER, seconds or minutes, and no rule writes one). -/
opaque Config.speakTimeBytes : SpeakTime → List Byte

/-- What an event record carries of a payload longer than the 1024 bytes of R188: no rule says, and at most 1024 bytes of this
value are taken. -/
opaque Config.overlongPayload : List Byte → List Byte

end Sys2Proof
end

