-- ==== Sys2Proof/Machine/Settings.lean ====
section
/-! DEFINITION. The settings record (R116) and its factory values (R134 names the chapters that give them). -/

namespace Sys2Proof.Machine

open Sys2Proof

/-- One value per screen slot. -/
structure PerSlot (α : Type) where
  front0 : α
  front1 : α
  rear0 : α
  rear1 : α
  deriving DecidableEq, Repr, Inhabited

def PerSlot.get {α : Type} (t : PerSlot α) : SlotId → α
  | .front0 => t.front0 | .front1 => t.front1 | .rear0 => t.rear0 | .rear1 => t.rear1

def PerSlot.upd {α : Type} (t : PerSlot α) (k : SlotId) (v : α) : PerSlot α :=
  match k with
  | .front0 => { t with front0 := v }
  | .front1 => { t with front1 := v }
  | .rear0 => { t with rear0 := v }
  | .rear1 => { t with rear1 := v }

/-- One value per wall screen. -/
structure PerScreen (α : Type) where
  front : α
  rear : α
  deriving DecidableEq, Repr, Inhabited

def PerScreen.get {α : Type} (t : PerScreen α) : Screen → α
  | .front => t.front | .rear => t.rear

def PerScreen.upd {α : Type} (t : PerScreen α) (k : Screen) (v : α) : PerScreen α :=
  match k with
  | .front => { t with front := v }
  | .rear => { t with rear := v }

/-- The configuration of one room line (08 section 8.1). -/
structure LineConfig where
  direction : Direction
  pullUp : Bool
  level : PinLevel
  released : Bool
  fn : LineFn
  edges : EdgeChoice
  notice : Bool
  wake : Bool
  deriving DecidableEq, Repr, Inhabited

/-- The settings record, by owning block (R116). -/
structure Settings where
  keyMode : Tab KeyMode 64
  debounce : Nat
  defaultMode : FloorMode
  defaultLimit : Nat
  overflow : Overflow
  priorityPolicy : PriorityPolicy
  /-- 0 is none -/
  speechLimit : Nat
  warningLead : Nat
  expiryAction : ExpiryAction
  trim : Tab Int 64
  master : Int
  nom : Bool
  duck : Int
  speakerLevel : Int
  selfDuck : Int
  exclusion : Nat
  remoteGain : Gain
  threshold : Int
  onset : Nat
  hold : Nat
  layout : PerScreen Layout
  source : PerSlot Source
  caption : Bool
  presenter : PresenterPolicy
  floorGrace : Nat
  binding : Tab (Option Seat) 16
  preStartLead : Nat
  overrunGrace : Nat
  lockPolicy : LockPolicy
  line : Tab LineConfig 8
  idleTime : Nat
  sleepDelay : Nat
  startState : StartState
  deriving DecidableEq, Repr

/-- The factory configuration of a line (08 section 8.1). -/
def LineConfig.factory : LineConfig :=
  { direction := .input, pullUp := true, level := .low, released := false, fn := .general, edges := .both,
    notice := false, wake := false }

/-- The factory default of every setting, as each block's chapter gives it. -/
def Settings.factory : Settings :=
  { keyMode := Tab.all 64 .toggle, debounce := 2
    defaultMode := .openMode, defaultLimit := 4, overflow := .queue, priorityPolicy := .duck
    speechLimit := 0, warningLead := 30, expiryAction := .warn
    trim := Tab.all 64 0, master := -12, nom := true, duck := -20, speakerLevel := -12, selfDuck := -12
    exclusion := 1, remoteGain := .code 0
    threshold := -60, onset := 5, hold := 500
    layout := ⟨.full, .full⟩, source := ⟨.auto, .auto, .agenda, .auto⟩, caption := false, presenter := .free
    floorGrace := 10, binding := Tab.all 16 none
    preStartLead := 10, overrunGrace := 5, lockPolicy := .free
    line := Tab.all 8 LineConfig.factory
    idleTime := 20, sleepDelay := 60, startState := .full }

end Sys2Proof.Machine
end

