-- ==== Sys2Proof/Machine/State.lean ====
section
/-! DEFINITION. The state of the part, block by block, as plain data, and the state at the release of a reset, before the
start-up sequence (R174) has run. INVENTORY.md lists every field with its rule and its reset value. -/

namespace Sys2Proof.Machine

open Sys2Proof

/-- Why the machine stops with a fault: it never does. The spec gives every row of the table an effect in every state,
so no constructor is needed. -/
inductive Fault
  deriving DecidableEq, Repr

/-- Why the machine gives a command no meaning. -/
inductive Refusal
  /-- Raised by `exec` alone, for a row whose meaning has not been written. Safe: the machine stops. -/
  | notModelled (mnemonic : String)
  deriving DecidableEq, Repr

/-! ## Table Bus Controller -/

/-- The TBC's record of one seat (01 section 1.1). -/
structure TbcSeat where
  presence : Presence := .absent
  kind : UnitKind := .noUnit
  missed : Nat := 0
  heldEnabled : Bool := false
  accepted : PerKey KeyLevel := PerKey.all .up
  candidate : PerKey (Option (KeyLevel × Nat)) := PerKey.all none
  flag : PerKey Bool := PerKey.all false
  shareSignal : Bool := false
  ringMark : Mark := .clear
  plateMark : Mark := .clear
  /-- the feed sample sent to the unit in the last sample period, none where no feed is sent (R14) -/
  feed : Option Int := none
  deriving DecidableEq, Repr, Inhabited

/-- A seat's nameplate content (R107). -/
structure Plate where
  name : Text := []
  note : Text := []
  role : Role := .ordinary
  mark : FloorMark := .nothing
  ending : Bool := false
  deriving DecidableEq, Repr, Inhabited

/-- The control item a poll carries (R3). -/
inductive PollItem
  | nothing
  | ring (r : Ring)
  | plate (p : Plate)
  deriving DecidableEq, Repr, Inhabited

structure Tbc where
  seats : Tab TbcSeat 64 := Tab.all 64 {}
  /-- the next address polled on each branch (R1) -/
  nextLeft : Fin 32 := 0
  nextRight : Fin 32 := 0
  /-- whether the branch has completed a poll cycle since both restarted (R171, POLL-PASS) -/
  passLeft : Bool := false
  passRight : Bool := false
  power : Option Power := none
  phase : Option Phase := none
  /-- the last poll sent to a unit -/
  lastPoll : Option (Seat × PollItem) := none
  deriving DecidableEq, Repr

/-! ## Floor Controller -/

/-- A speaker-list entry (02 section 2.2). -/
structure SpeakerEntry where
  seat : Seat
  origin : Origin
  day : Nat
  second : Nat
  remaining : Option Nat
  priority : Bool
  overtime : Bool
  deriving DecidableEq, Repr, Inhabited

/-- A request-queue entry (R22). -/
structure QueueEntry where
  seat : Seat
  origin : Origin
  day : Nat
  second : Nat
  deriving DecidableEq, Repr, Inhabited

/-- The floor fields of one seat (02 section 2.1). -/
structure FlcSeat where
  enabled : Bool := false
  role : Role := .ordinary
  participant : Option PIdx := none
  selfMuted : Bool := false
  /-- time left of the refusal flash -/
  flash : Option Nat := none
  ring : Ring := .off
  online : Bool := false
  deriving DecidableEq, Repr, Inhabited

structure Flc where
  seats : Tab FlcSeat 64 := Tab.all 64 {}
  speakers : List SpeakerEntry := []
  queue : List QueueEntry := []
  overrides : List Seat := []
  mode : FloorMode := .openMode
  limit : Nat := 4
  seating : Seating := .lockedRoom
  plan : SeatPlan := {}
  muteSwitch : Bool := false
  power : Option Power := none
  /-- the answer last given to the PCU: both collections empty -/
  emptyTold : Bool := true
  deriving DecidableEq, Repr

/-! ## Mix Engine -/

structure MixSeat where
  target : Gain := .mute
  applied : Gain := .mute
  mult : Nat := 0
  /-- the multiplier of the factory speaker level −12 (R65) -/
  level : Nat := 8211
  feedClip : Bool := false
  online : Bool := false
  feed : Option Int := none
  deriving DecidableEq, Repr, Inhabited

structure Mix where
  seats : Tab MixSeat 64 := Tab.all 64 {}
  programClip : Bool := false
  programPeak : Nat := 0
  remotePeak : Nat := 0
  remoteMult : Nat := 0
  radius : Nat := 1
  speakers : List (Seat × Bool) := []
  overriding : Bool := false
  policy : PriorityPolicy := .duck
  mute : Bool := false
  power : Option Power := none
  phase : Option Phase := none
  programSend : Int := 0
  deriving DecidableEq, Repr

/-! ## Voice Detector -/

structure VdtSeat where
  online : Bool := false
  floorEligible : Bool := false
  env : Nat := 0
  state : DetState := .quiet
  count : Nat := 0
  hold : Nat := 0
  /-- the largest magnitude of the running block -/
  peak : Nat := 0
  /-- eligible since the running block began -/
  whole : Bool := false
  deriving DecidableEq, Repr, Inhabited

structure Vdt where
  seats : Tab VdtSeat 64 := Tab.all 64 {}
  power : Option Power := none
  /-- sample periods taken in the running block -/
  samples : Nat := 0
  deriving DecidableEq, Repr

/-! ## Screen Router -/

/-- One share point (05 section 5.1). -/
structure PointState where
  signal : Bool := false
  /-- milliseconds left of the loss hold -/
  loss : Option Nat := none
  deriving DecidableEq, Repr, Inhabited

/-- State of a share entry, with the slot it holds (05 section 5.3). -/
inductive ShareState
  | waiting
  | shown (slot : SlotId)
  | grace (slot : SlotId) (left : Nat)
  deriving DecidableEq, Repr, Inhabited

structure ShareEntry where
  point : Point
  seat : Seat
  state : ShareState
  approved : Bool
  deriving DecidableEq, Repr, Inhabited

/-- A screen's composition (R94); `right` is slot 1, absent under FULL. -/
structure Composition where
  layout : Layout
  left : Shown
  right : Option Shown
  caption : Option Text
  deriving DecidableEq, Repr, Inhabited

/-- One entry of the agenda page, in the order in which the page reads (R106). -/
inductive PageEntry
  | current (title organiser : Text) (start stop : DayMinute)
  | next (title : Text) (start stop : DayMinute)
  | availableUntil (start : DayMinute)
  | available
  deriving DecidableEq, Repr, Inhabited

structure ScrSeat where
  signal : Bool := false
  enabled : Bool := false
  online : Bool := false
  role : Role := .ordinary
  participant : Option PIdx := none
  plate : Plate := {}
  deriving DecidableEq, Repr, Inhabited

structure Scr where
  points : Tab PointState 16 := Tab.all 16 {}
  seats : Tab ScrSeat 64 := Tab.all 64 {}
  speakers : List SpeakerView := []
  queue : List Seat := []
  lead : Nat := 30
  power : Power := .quiet
  endingMark : Bool := false
  shares : List ShareEntry := []
  agenda : Agenda := {}
  /-- the name of the current booking's organiser, blank without one -/
  organiserName : Text := []
  /-- the agenda page as it reads (R106) -/
  page : List PageEntry := [.available]
  screens : PerScreen Composition := ⟨⟨.full, .black, none, none⟩, ⟨.full, .black, none, none⟩⟩
  /-- the answer last given to the PCU: share list empty -/
  emptyTold : Bool := true
  deriving DecidableEq, Repr

/-! ## Booking Store -/

/-- The store slots (R116): 0 to 31, 32 to 127, 128. -/
inductive StoreSlot
  | booking (b : BSlot)
  | participant (p : PIdx)
  | settings
  deriving DecidableEq, Repr, Inhabited

/-- What a write carries (R129): the content of one slot. -/
inductive Record
  | booking (b : Option Booking)
  | participant (p : Option Participant)
  | settings (s : Settings)
  deriving DecidableEq, Repr

/-- What non-volatile memory holds of one slot: a content with a good checksum, or a torn one (R133). -/
inductive Image (α : Type)
  | good (v : α)
  | torn
  deriving DecidableEq, Repr

/-- The durable content of the 129 slots (R116). -/
structure Durable where
  bookings : Tab (Image (Option Booking)) 32 := Tab.all 32 (.good none)
  participants : Tab (Image (Option Participant)) 96 := Tab.all 96 (.good none)
  settings : Image Settings := .good Settings.factory
  deriving DecidableEq, Repr

/-- The write in flight, with its image and its re-queue mark (R128, R129). -/
structure WriteInFlight where
  slot : StoreSlot
  image : Record
  requeue : Bool
  deriving DecidableEq, Repr

/-- One write a command waits on: `skips` ends of writes of `slot` come before the one that carries the change (R132). -/
structure WriteWait where
  slot : StoreSlot
  skips : Nat
  deriving DecidableEq, Repr, Inhabited

/-- A command that waits for its writes, with the completion it will receive (R132). -/
structure Waiter where
  ref : CmdRef
  result : Result
  payload : List Byte
  waits : List WriteWait
  deriving DecidableEq, Repr, Inhabited

/-- Persist state of a slot (R128); WRITING with its re-queue mark. -/
inductive Persist
  | clean
  | dirty
  | writing (requeue : Bool)
  deriving DecidableEq, Repr, Inhabited

structure Bks where
  bookings : Tab (Option Booking) 32 := Tab.all 32 none
  participants : Tab (Option Participant) 96 := Tab.all 96 none
  saveImage : Settings := Settings.factory
  durable : Durable := {}
  queue : List StoreSlot := []
  writing : Option WriteInFlight := none
  supplyHeld : Bool := true
  waiters : List Waiter := []
  deriving DecidableEq, Repr

/-! ## Meeting Scheduler -/

structure Msc where
  clock : ClockState := .unset
  day : Nat := 0
  second : Nat := 0
  /-- check-in memory: the instant of the minute in which the AWAITING booking entered (R144) -/
  awaitingSince : Option Nat := none
  /-- check-in memory: the overrun grace held for the ENDING booking, in minutes (R145) -/
  graceHeld : Option Nat := none
  /-- the agenda last sent to the Screen Router -/
  agendaSent : Agenda := {}
  deriving DecidableEq, Repr

/-! ## Room Lines -/

structure LineState where
  settled : Option PinLevel := none
  /-- the level of the running samples that do not agree with the settled level, and their count -/
  run : Option (PinLevel × Nat) := none
  flag : Bool := false
  suppressed : Bool := false
  deriving DecidableEq, Repr, Inhabited

/-- A running ending blink: its phase and the time left of it (R159). -/
structure Blink where
  on : Bool
  left : Nat
  deriving DecidableEq, Repr, Inhabited

structure Rln where
  lines : Tab LineState 8 := Tab.all 8 {}
  sessionLamp : Bool := false
  liveLamp : Bool := false
  blink : Option Blink := none
  /-- time left of the chime pulse -/
  chime : Option Nat := none
  muteTold : Option Bool := none
  supplyTold : Option Bool := none
  power : Option Power := none
  deriving DecidableEq, Repr

/-! ## Power and Clock Unit -/

/-- The start record (R175). -/
structure StartRecord where
  cause : ResetCause := .power
  wasAsleep : Bool := false
  torn : Nat := 0
  deriving DecidableEq, Repr, Inhabited

structure Pcu where
  power : Option Power := none
  phase : Option Phase := none
  /-- time left, in 1/1024 s -/
  idle : Option Nat := none
  sleep : Option Nat := none
  bookingCurrent : Bool := false
  floorEmpty : Bool := true
  shareEmpty : Bool := true
  room : RoomCrystal := .running
  audio : AudioCrystal := .settling
  stopLatch : Bool := false
  /-- the copy of the power state in the always-on domain (R175) -/
  keptPower : Option Power := none
  start : StartRecord := {}
  deriving DecidableEq, Repr

/-! ## Client Port Hub -/

/-- A command in hand (R178); `row` is none for a parameter list that does not parse. -/
structure InHand where
  tag : Nat
  code : Nat
  cookie : BitVec 32
  row : Option Instr
  waitsFull : Bool
  deriving DecidableEq, Repr

/-- An event record (R188). -/
structure EventRecord where
  isNotice : Bool
  gap : Bool
  /-- the command code, or the notice kind's number -/
  code : Nat
  cookie : BitVec 32
  /-- the result code number, 0 for a notice -/
  result : Nat
  payload : List Byte
  deriving DecidableEq, Repr

/-- What the hub holds for one port (10 section 10.1). -/
structure PortState where
  inHand : List InHand := []
  events : List EventRecord := []
  gap : Bool := false
  subs : List NoticeKind := [.authority]
  window : Nat := 10
  /-- time left of the presence timer, in 1/1024 s -/
  timer : Option Nat := none
  token : Option Token := none
  /-- the answer part of the port's last frame -/
  answer : List Byte := []
  deriving DecidableEq, Repr

/-- The authority table: the port that holds each authority, or none (10 section 10.1). -/
structure AuthorityTable where
  floor : Option Port := none
  mix : Option Port := none
  route : Option Port := none
  book : Option Port := none
  room : Option Port := none
  deriving DecidableEq, Repr, Inhabited

structure Cph where
  ports : Tab PortState 3 := Tab.all 3 {}
  holder : AuthorityTable := {}
  nextTag : Nat := 0
  deriving DecidableEq, Repr

/-! ## The whole part -/

structure State where
  settings : Settings
  tbc : Tbc
  flc : Flc
  mix : Mix
  vdt : Vdt
  scr : Scr
  bks : Bks
  msc : Msc
  rln : Rln
  pcu : Pcu
  cph : Cph
  /-- reports between blocks that have been sent and not yet taken -/
  flight : List Instr
  /-- commands that wait, first in, first out -/
  pending : List Instr
  deriving DecidableEq, Repr

/-- The machine right after reset (the tables "After any reset" of the chapters), with the store of a new part (R134).
The start-up sequence of R174 is the command RESET. -/
def State.reset : State :=
  { settings := Settings.factory, tbc := {}, flc := {}, mix := {}, vdt := {}, scr := {}, bks := {}, msc := {}, rln := {}
    pcu := {}, cph := {}, flight := [], pending := [] }

end Sys2Proof.Machine
end

