-- ==== Sys2Proof/Machine/Operands.lean ====
section
/-! DEFINITION. How the parameters of a command record become the operands of its row (R189), and what each command code needs:
its authority and whether it needs FULL (R172, section 10.5). -/

namespace Sys2Proof.Machine

open Sys2Proof

/-! ## Fields (R189): each takes bytes from the front; `none` is a list that does not parse -/

/-- A field read from the front of the parameters, with what is left. -/
abbrev Field (α : Type) := List Byte → Option (α × List Byte)

/-- A one-byte field. -/
def byteField : Field Nat
  | [] => none
  | b :: rest => some (b.toNat, rest)

/-- A two-byte field, most significant byte first. -/
def wordField : Field Nat
  | a :: b :: rest => some (a.toNat * 256 + b.toNat, rest)
  | _ => none

/-- A four-byte field. -/
def longField : Field Nat
  | a :: b :: c :: d :: rest => some (((a.toNat * 256 + b.toNat) * 256 + c.toNat) * 256 + d.toNat, rest)
  | _ => none

/-- A field with its value read through `f`. -/
def mapField {α β : Type} (f : α → β) (p : Field α) : Field β := fun l => (p l).map fun r => (f r.1, r.2)

/-- A number of an unsigned setting: FFFF is none, and so no number (log 11). -/
def unsignedField : Field NumArg := mapField (fun n : Nat => if n = 0xFFFF then none else some (n : Int)) wordField

/-- The value of a two-byte code in two's complement. -/
def signedOf (n : Nat) : Int := if n < 0x8000 then n else (n : Int) - 0x10000

/-- A number of a signed setting: 8000 is none and 7FFF is MUTE, neither of them a number (log 11). -/
def signedField : Field NumArg := mapField (fun n : Nat => if n = 0x8000 ∨ n = 0x7FFF then none else some (signedOf n)) wordField

/-- A gain: 7FFF is MUTE. -/
def gainArg : Field (Option Gain) :=
  mapField (fun n : Nat => if n = 0x7FFF then some .mute else if n = 0x8000 then none else some (.code (signedOf n))) wordField

/-- A named value of a list. -/
def namedField {α : Type} (names : List α) : Field (Option α) := mapField (fun n => names[n]?) byteField

/-- Yes, on and set are 01; no, off and clear are 00. -/
def yesNo : Field (Option Bool) := namedField [false, true]

/-- A number below `n`. -/
def below (n k : Nat) : Option (Fin n) := if h : k < n then some ⟨k, h⟩ else none

/-- An index field; `none` inside is an index outside its range. -/
def indexField (n : Nat) : Field (Option (Fin n)) := mapField (below n) byteField

/-- A seat or ALL. -/
def seatSelField : Field SeatSel := mapField (fun n => if n = 0xFF then .all else .one (below 64 n)) byteField

/-- A seat or NONE. -/
def bindField : Field BindArg := mapField (fun n => if n = 0xFF then .unbind else .to (below 64 n)) byteField

/-- A participant given as KEEP, NONE or an index. -/
def participantField : Field ParticipantArg :=
  mapField (fun n => if n = 0xFE then .keep else if n = 0xFF then .absent else .index (below 96 n)) byteField

/-- An optional one-byte value. -/
def optByte : Field (Option Nat) := mapField (fun n => if n = 0xFF then none else some n) byteField

/-- An optional unsigned two-byte value. -/
def optWord : Field (Option Nat) := mapField (fun n => if n = 0xFFFF then none else some n) wordField

/-- An optional named value. -/
def optNamed {α : Type} (names : List α) : Field (Option (Option α)) :=
  mapField (fun n => if n = 0xFF then none else some names[n]?) byteField

/-- The members of a set from its number; `none` when a bit outside the names is set. -/
def membersOf {α : Type} (names : List α) (v : Nat) : Option (List α) :=
  if 2 ^ names.length ≤ v then none else some ((names.zipIdx.filter fun a => v.testBit a.2).map (·.1))

/-- A set of up to eight values. -/
def setByte {α : Type} (names : List α) : Field (Option (List α)) := mapField (membersOf names) byteField

/-- A set of nine to sixteen values. -/
def setWord {α : Type} (names : List α) : Field (Option (List α)) := mapField (membersOf names) wordField

/-- A text: a count byte and the characters. -/
def textArg : Field Text
  | [] => none
  | n :: rest => if n.toNat ≤ rest.length then some (rest.take n.toNat, rest.drop n.toNat) else none

/-- A time: a day and a minute, two bytes each. -/
def timeField : Field DayMinute := fun l => do
  let (d, l) ← wordField l
  let (m, l) ← wordField l
  pure (⟨d, m⟩, l)

/-- `n` attendee pairs. -/
def pairFields : Nat → Field (List (Nat × Nat))
  | 0, l => some ([], l)
  | n + 1, l => do
    let (x, l) ← byteField l
    let (p, l) ← byteField l
    let (rest, l) ← pairFields n l
    pure ((x, p) :: rest, l)

/-- An attendee list. -/
def pairsField : Field (List (Nat × Nat)) := fun l => do
  let (n, l) ← byteField l
  pairFields n l

/-- A field that is there when its mark in the set is. -/
def given {α : Type} (there : Bool) (p : Field α) : Field (Option α) := fun l =>
  if there then (p l).map fun r => (some r.1, r.2) else some (none, l)

/-- The row, when no bytes are left over. -/
def wholeList {α : Type} (row : α) (rest : List Byte) : Option α := if rest = [] then some row else none

/-! ## Rows from one, two or three fields -/

/-- A row without parameters. -/
def row0 (row : Instr) (l : List Byte) : Option Instr := wholeList row l

def row1 {α : Type} (a : Field α) (row : α → Instr) (l : List Byte) : Option Instr := do
  let (x, l) ← a l
  wholeList (row x) l

def row2 {α β : Type} (a : Field α) (b : Field β) (row : α → β → Instr) (l : List Byte) : Option Instr := do
  let (x, l) ← a l
  let (y, l) ← b l
  wholeList (row x y) l

def row3 {α β γ : Type} (a : Field α) (b : Field β) (c : Field γ) (row : α → β → γ → Instr) (l : List Byte) : Option Instr := do
  let (x, l) ← a l
  let (y, l) ← b l
  let (z, l) ← c l
  wholeList (row x y z) l

/-! ## Names in the order of their lists -/

def keyModeNames : List KeyMode := [.toggle, .pushToTalk]

def keyNames : List Key := [.mic, .priority, .next, .share]

def floorModeNames : List FloorMode := [.openMode, .request, .auto, .voice]

def scopeNames : List Scope := [.now, .default]

def overflowNames : List Overflow := [.deny, .queue, .bump]

def priorityPolicyNames : List PriorityPolicy := [.duck, .closeAll]

def expiryNames : List ExpiryAction := [.warn, .close]

def roleNames : List Role := [.ordinary, .chair, .vice]

def screenNames : List Screen := [.front, .rear]

def layoutNames : List Layout := [.full, .split]

def sourceNames : List Source := [.auto, .nothing, .roomPc, .agenda]

def presenterNames : List PresenterPolicy := [.free, .floor, .chair]

def lockPolicyNames : List LockPolicy := [.locked, .free]

def startStateNames : List StartState := [.full, .quiet]

def directionNames : List Direction := [.input, .output]

def levelNames : List PinLevel := [.high, .low]

def lineFnNames : List LineFn := [.general, .sessionLamp, .liveLamp, .endingBlink, .chime, .occupancy, .muteSwitch, .supplyWarn]

def edgeNames : List EdgeChoice := [.rise, .fall, .both]

def noticeKindNames : List NoticeKind := [.floor, .seat, .booking, .share, .line, .power, .authority, .store, .clock]

def authorityNames : List Authority := [.floor, .mix, .route, .book, .room]

def tokenNames : List Token := [.a, .b]

/-- The states LIST-BOOKINGS may name, FREE last (R126). -/
def listStateNames : List (Option BState) :=
  [some .scheduled, some .pending, some .awaiting, some .active, some .ending, some .ended, some .released, some .cancelled, none]

/-- A screen and a slot number as one of the four slots; `none` when either is outside its set (R110). -/
def slotOf (screen : Option Screen) (slot : Nat) : Option SlotId :=
  match screen, slot with
  | some .front, 0 => some .front0
  | some .front, 1 => some .front1
  | some .rear, 0 => some .rear0
  | some .rear, 1 => some .rear1
  | _, _ => none

/-! ## Records -/

/-- ADD-BOOKING's parameters: the record's fields in its order, but for state, checked-in and actual end (R119). -/
def addBookingRow (r : CmdRef) (l : List Byte) : Option Instr := do
  let (ref, l) ← longField l
  let (start, l) ← timeField l
  let (stop, l) ← timeField l
  let (title, l) ← textArg l
  let (organiser, l) ← optByte l
  let (chair, l) ← optByte l
  let (vice, l) ← optByte l
  let (mode, l) ← optNamed floorModeNames l
  let (limit, l) ← optWord l
  let (noShow, l) ← wordField l
  let (attendees, l) ← pairsField l
  wholeList (.addBooking r ⟨BitVec.ofNat 32 ref, start, stop, title, organiser, chair, vice, mode, limit, noShow, attendees⟩) l

/-- EDIT-BOOKING's parameters: the set of the eleven fields that may be given, those fields, and then the slot (R122, R189,
log 42). -/
def editBookingRow (r : CmdRef) (l : List Byte) : Option Instr := do
  let (set, l) ← wordField l
  if 2 ^ 11 ≤ set then none
  else
    let (ref, l) ← given (set.testBit 0) longField l
    let (start, l) ← given (set.testBit 1) timeField l
    let (stop, l) ← given (set.testBit 2) timeField l
    let (title, l) ← given (set.testBit 3) textArg l
    let (organiser, l) ← given (set.testBit 4) optByte l
    let (chair, l) ← given (set.testBit 5) optByte l
    let (vice, l) ← given (set.testBit 6) optByte l
    let (mode, l) ← given (set.testBit 7) (optNamed floorModeNames) l
    let (limit, l) ← given (set.testBit 8) optWord l
    let (noShow, l) ← given (set.testBit 9) wordField l
    let (attendees, l) ← given (set.testBit 10) pairsField l
    let (slot, l) ← indexField 32 l
    wholeList (.editBooking r slot
      ⟨ref.map (BitVec.ofNat 32), start, stop, title, organiser, chair, vice, mode, limit, noShow, attendees⟩) l

/-- EDIT-PARTICIPANT's parameters: the set of name and note, the texts given, and then the index (R124, R189, log 42). -/
def editParticipantRow (r : CmdRef) (l : List Byte) : Option Instr := do
  let (set, l) ← byteField l
  if 4 ≤ set then none
  else
    let (name, l) ← given (set.testBit 0) textArg l
    let (note, l) ← given (set.testBit 1) textArg l
    let (p, l) ← indexField 96 l
    wholeList (.editParticipant r p name note) l

/-- SET-LINE's parameters: the set of fields given, those fields in the order of the configuration table, and then the line (R163,
R189, log 42). -/
def setLineRow (r : CmdRef) (l : List Byte) : Option Instr := do
  let (set, l) ← byteField l
  let (direction, l) ← given (set.testBit 0) (namedField directionNames) l
  let (pullUp, l) ← given (set.testBit 1) yesNo l
  let (level, l) ← given (set.testBit 2) (namedField levelNames) l
  let (released, l) ← given (set.testBit 3) yesNo l
  let (fn, l) ← given (set.testBit 4) (namedField lineFnNames) l
  let (edges, l) ← given (set.testBit 5) (namedField edgeNames) l
  let (notice, l) ← given (set.testBit 6) yesNo l
  let (wake, l) ← given (set.testBit 7) yesNo l
  let (line, l) ← indexField 8 l
  wholeList (.setLine r line ⟨direction, pullUp, level, released, fn, edges, notice, wake⟩) l

/-! ## The commands (R189) -/

/-- What the hub knows of a command code: the authority it needs, whether it needs FULL, and its row. -/
structure Command where
  authority : Option Authority
  needsFull : Bool
  row : CmdRef → List Byte → Option Instr

/-- The Table Bus Controller's codes. -/
def tbcCommand : Nat → Option Command
  | 1 => some ⟨some .room, false, fun r => row2 seatSelField (namedField keyModeNames) (.setKeyMode r)⟩
  | 2 => some ⟨some .room, false, fun r => row1 unsignedField (.setDebounce r)⟩
  | 3 => some ⟨none, false, fun r => row2 byteField byteField (.readSeat r)⟩
  | 4 => some ⟨none, false, fun r => row2 seatSelField (setByte keyNames) (.clearKeyFlags r)⟩
  | _ => none

/-- The Floor Controller's codes. -/
def flcCommand : Nat → Option Command
  | 1 => some ⟨some .floor, true, fun r => row1 (indexField 64) (.grant r)⟩
  | 2 => some ⟨some .floor, true, fun r => row0 (.grantNext r)⟩
  | 3 => some ⟨some .floor, true, fun r => row1 (indexField 64) (.addRequest r)⟩
  | 4 => some ⟨some .floor, true, fun r => row1 (indexField 64) (.close r)⟩
  | 5 => some ⟨some .floor, true, fun r => row0 (.closeSpeakers r)⟩
  | 6 => some ⟨some .floor, true, fun r => row0 (.clearQueue r)⟩
  | 7 => some ⟨some .floor, true, fun r => row2 (namedField floorModeNames) (namedField scopeNames) (.setFloorMode r)⟩
  | 8 => some ⟨some .floor, true, fun r => row2 unsignedField (namedField scopeNames) (.setOpenLimit r)⟩
  | 9 => some ⟨some .floor, true, fun r => row1 (namedField overflowNames) (.setOverflow r)⟩
  | 10 => some ⟨some .floor, true, fun r => row1 (namedField priorityPolicyNames) (.setPriorityPolicy r)⟩
  | 11 => some ⟨some .floor, true, fun r => row3 unsignedField unsignedField (namedField expiryNames) (.setSpeechLimit r)⟩
  | 12 => some ⟨some .floor, true, fun r => row2 (indexField 64) yesNo (.enableSeat r)⟩
  | 13 => some ⟨some .floor, true, fun r => row3 (indexField 64) (namedField roleNames) participantField (.setRole r)⟩
  | 14 => some ⟨none, false, fun r => row0 (.readFloor r)⟩
  | _ => none

/-- The Mix Engine's codes. -/
def mixCommand : Nat → Option Command
  | 1 => some ⟨some .mix, true, fun r => row1 signedField (.setMaster r)⟩
  | 2 => some ⟨some .mix, true, fun r => row2 seatSelField signedField (.setTrim r)⟩
  | 3 => some ⟨some .mix, true, fun r => row1 signedField (.setSpeakerLevel r)⟩
  | 4 => some ⟨some .mix, true, fun r => row1 signedField (.setSelfDuck r)⟩
  | 5 => some ⟨some .mix, true, fun r => row1 signedField (.setDuck r)⟩
  | 6 => some ⟨some .mix, true, fun r => row1 yesNo (.setNom r)⟩
  | 7 => some ⟨some .mix, true, fun r => row1 unsignedField (.setExclusion r)⟩
  | 8 => some ⟨some .mix, true, fun r => row1 gainArg (.setRemoteGain r)⟩
  | 9 => some ⟨none, false, fun r => row2 byteField byteField (.readMeters r)⟩
  | _ => none

/-- The Voice Detector's codes. -/
def vdtCommand : Nat → Option Command
  | 1 => some ⟨some .mix, true, fun r => row1 signedField (.setVoiceThreshold r)⟩
  | 2 => some ⟨some .mix, true, fun r => row1 unsignedField (.setVoiceOnset r)⟩
  | 3 => some ⟨some .mix, true, fun r => row1 unsignedField (.setVoiceHold r)⟩
  | _ => none

/-- The Screen Router's codes. -/
def scrCommand : Nat → Option Command
  | 1 => some ⟨some .route, true, fun r => row2 (namedField screenNames) (namedField layoutNames) (.setLayout r)⟩
  | 2 => some ⟨some .route, true, fun r => row3 (namedField screenNames) byteField (namedField sourceNames)
      fun c k => .setSlot r (slotOf c k)⟩
  | 3 => some ⟨some .route, true, fun r => row1 yesNo (.setCaption r)⟩
  | 4 => some ⟨some .route, true, fun r => row1 (namedField presenterNames) (.setPresenterPolicy r)⟩
  | 5 => some ⟨some .route, true, fun r => row1 unsignedField (.setFloorGrace r)⟩
  | 6 => some ⟨some .route, true, fun r => row1 (indexField 16) (.shareStart r)⟩
  | 7 => some ⟨some .route, true, fun r => row1 (indexField 16) (.shareStop r)⟩
  | 8 => some ⟨some .route, true, fun r => row2 (indexField 16) yesNo (.approveShare r)⟩
  | 9 => some ⟨some .room, false, fun r => row2 (indexField 16) bindField (.bindSharePoint r)⟩
  | 10 => some ⟨none, false, fun r => row2 byteField byteField (.readScreens r)⟩
  | _ => none

/-- The Booking Store's codes. -/
def bksCommand : Nat → Option Command
  | 1 => some ⟨some .book, false, addBookingRow⟩
  | 2 => some ⟨some .book, false, fun r => row1 (indexField 32) (.cancelBooking r)⟩
  | 3 => some ⟨some .book, false, fun r => row1 (indexField 32) (.deleteBooking r)⟩
  | 4 => some ⟨some .book, false, editBookingRow⟩
  | 5 => some ⟨some .book, false, fun r => row2 textArg textArg (.addParticipant r)⟩
  | 6 => some ⟨some .book, false, editParticipantRow⟩
  | 7 => some ⟨some .book, false, fun r => row1 (indexField 96) (.deleteParticipant r)⟩
  | 8 => some ⟨none, false, fun r => row1 (indexField 32) (.readBooking r)⟩
  | 9 => some ⟨none, false, fun r l => do
      let (set, l) ← setWord listStateNames l
      let (first, l) ← byteField l
      let states ← set
      wholeList (.listBookings r states first) l⟩
  | 10 => some ⟨none, false, fun r => row2 byteField byteField (.readParticipant r)⟩
  | 11 => some ⟨some .room, false, fun r => row0 (.saveSettings r)⟩
  | _ => none

/-- The Meeting Scheduler's codes. -/
def mscCommand : Nat → Option Command
  | 1 => some ⟨some .book, false, fun r => row2 wordField longField (.setClock r)⟩
  | 2 => some ⟨none, false, fun r => row0 (.readClock r)⟩
  | 3 => some ⟨none, false, fun r => row0 (.checkIn r)⟩
  | 4 => some ⟨some .book, false, fun r => row2 (indexField 32) timeField (.extend r)⟩
  | 5 => some ⟨some .book, false, fun r => row1 (indexField 32) (.endNow r)⟩
  | 6 => some ⟨some .room, false, fun r => row1 unsignedField (.setPreStartLead r)⟩
  | 7 => some ⟨some .room, false, fun r => row1 unsignedField (.setOverrunGrace r)⟩
  | 8 => some ⟨some .room, false, fun r => row1 (namedField lockPolicyNames) (.setLockPolicy r)⟩
  | _ => none

/-- The Room Lines' codes. -/
def rlnCommand : Nat → Option Command
  | 1 => some ⟨some .room, false, setLineRow⟩
  | 2 => some ⟨none, false, fun r => row1 (setByte (List.finRange 8)) (.clearLineFlags r)⟩
  | 3 => some ⟨none, false, fun r => row0 (.readLines r)⟩
  | _ => none

/-- The Power and Clock Unit's codes. -/
def pcuCommand : Nat → Option Command
  | 1 => some ⟨some .room, false, fun r => row0 (.quiet r)⟩
  | 2 => some ⟨some .room, false, fun r => row0 (.sleep r)⟩
  | 3 => some ⟨none, true, fun r => row0 (.wake r)⟩
  | 4 => some ⟨some .room, false, fun r => row1 unsignedField (.setIdleTime r)⟩
  | 5 => some ⟨some .room, false, fun r => row1 unsignedField (.setSleepDelay r)⟩
  | 6 => some ⟨some .room, false, fun r => row1 (namedField startStateNames) (.setStartState r)⟩
  | _ => none

/-- The hub's own codes. -/
def cphCommand : Nat → Option Command
  | 1 => some ⟨none, false, fun r => row1 (setWord noticeKindNames) (.subscribe r)⟩
  | 2 => some ⟨none, false, fun r => row2 (setByte authorityNames) unsignedField (.claim r)⟩
  | 3 => some ⟨none, false, fun r => row1 (setByte authorityNames) (.release r)⟩
  | 4 => some ⟨none, false, fun r => row1 (namedField tokenNames) (.presence r)⟩
  | 5 => some ⟨none, false, fun r => row0 (.identify r)⟩
  | 6 => some ⟨none, false, fun r => row0 (.status r)⟩
  | _ => none

/-- The command a code names, by the block in its high byte (R189). -/
def commandOf (code : Nat) : Option Command :=
  match code / 256 with
  | 1 => tbcCommand (code % 256)
  | 2 => flcCommand (code % 256)
  | 3 => mixCommand (code % 256)
  | 4 => vdtCommand (code % 256)
  | 5 => scrCommand (code % 256)
  | 6 => bksCommand (code % 256)
  | 7 => mscCommand (code % 256)
  | 8 => rlnCommand (code % 256)
  | 9 => pcuCommand (code % 256)
  | 10 => cphCommand (code % 256)
  | _ => none

end Sys2Proof.Machine
end

