-- ==== Sys2Proof/Machine/Arith.lean ====
section
/-! DEFINITION. The exact arithmetic of the mix and the detector (chapters 3 and 4), and the frame check (10 section 10.7). -/

namespace Sys2Proof.Machine

open Sys2Proof

/-- Whether `2m − 1 ≤ 2 × scale × 10^(a/40)`, with no root taken: both sides to the 40th power. -/
def notAbove (scale : Nat) (a : Int) (m : Nat) : Bool :=
  (2 * m - 1) ^ 40 * 10 ^ (-a).toNat ≤ (2 * scale) ^ 40 * 10 ^ a.toNat

/-- The largest `m ≤ acc + 2^bits − 1` at or after `acc` with `notAbove`, found bit by bit from the top. -/
def searchDown (scale : Nat) (a : Int) : Nat → Nat → Nat
  | 0, acc => acc
  | bits + 1, acc =>
    searchDown scale a bits (if notAbove scale a (acc + 2 ^ bits) then acc + 2 ^ bits else acc)

/-- The integer nearest to `scale × 10^(a/40)`, halves rounding up (R65, R84); the answer fits 24 bits. -/
def nearestLevel (scale : Nat) (a : Int) : Nat := searchDown scale a 24 0

/-- The multiplier of a gain (R65). -/
def multiplier : Gain → Nat
  | .mute => 0
  | .code a => nearestLevel 16384 a

/-- The threshold value of a threshold setting (R84). -/
def thresholdValue (theta : Int) : Nat := nearestLevel 8388608 theta

/-- Whether `c − 1/2 ≤ 40 × log10 (e / 8388608)` for the code `c = −k`, with no logarithm taken. -/
def reachesCode (e k : Nat) : Bool := 8388608 ^ 80 ≤ e ^ 80 * 10 ^ (2 * k + 1)

/-- The first of the codes `−k, −(k+1), …` that `e` reaches, within `fuel` codes. -/
def codeFrom (e : Nat) : Nat → Nat → Int
  | 0, _ => -160
  | fuel + 1, k => if reachesCode e k then -(k : Int) else codeFrom e fuel (k + 1)

/-- The envelope code (R89). -/
def envelopeCode (e : Nat) : Int := if e = 0 then -160 else codeFrom e 161 0

/-- NOM attenuation (R61). -/
def nomAttenuation : Nat → Int
  | 0 => 0 | 1 => 0 | 2 => 6 | 3 => 10 | 4 => 12 | 5 => 14 | 6 => 16 | 7 => 17 | _ => 18

/-- One step of an applied code toward its target (R63). -/
def rampStep (applied target : Gain) : Gain :=
  match applied, target with
  | .mute, .mute => .mute
  | .mute, .code t => .code (if t - 20 < -160 then -160 else t - 20)
  | .code a, .mute => if a - 8 < -160 then .mute else .code (a - 8)
  | .code a, .code t =>
    if a = t then .code a
    else if a < t then (if t - a < 2 then .code t else .code (a + 2))
    else if a - t < 8 then .code t else .code (a - 8)

/-- Division by 16384 to the nearest integer, halves toward +∞ (R67). -/
def rnd14 (v : Int) : Int := (v + 8192).fdiv 16384

/-- Saturation to 24 bits (R67). -/
def sat24 (v : Int) : Int := clampInt (-8388608) 8388607 v

/-- The envelope after a block of peak `peak` (R83). -/
def decayed (env peak : Nat) : Nat := max peak (env - env / 16)

/-- One bit of the frame check: polynomial 1021, most significant bit first (10 section 10.7). -/
def crcBit (c : BitVec 16) : BitVec 16 := if c.msb then (c <<< 1) ^^^ 0x1021#16 else c <<< 1

def crcBits : Nat → BitVec 16 → BitVec 16
  | 0, c => c
  | n + 1, c => crcBits n (crcBit c)

def crcByte (c : BitVec 16) (b : Byte) : BitVec 16 := crcBits 8 (c ^^^ (b.zeroExtend 16 <<< 8))

/-- The check of a part of a frame: initial value FFFF (10 section 10.7). -/
def frameCheck (bytes : List Byte) : BitVec 16 := bytes.foldl crcByte 0xFFFF#16

end Sys2Proof.Machine
end

