-- ==== Sys2Proof/Machine/Ops.lean ====
section
/-! DEFINITION. Operations that several blocks share: sending and taking reports, the result of a command, waiting for FULL,
and the restart of the idle timer. -/

namespace Sys2Proof.Machine

open Sys2Proof

/-- The outcome of a meaning. -/
abbrev Out := Host.Outcome State Fault Refusal

/-- Every seat, in ascending order. -/
def allSeats : List Seat := List.finRange 64

/-- Reports sent to other blocks, in the order of sending. -/
def State.emit (s : State) (reports : List Instr) : State := { s with flight := s.flight ++ reports }

/-- A report is taken: the first of its kind in flight is no longer in flight. -/
def State.taking (s : State) (c : Instr) : State := { s with flight := s.flight.erase c }

/-- A notice handed to the hub (R180). -/
def State.notify (s : State) (kind : NoticeKind) (payload : List Byte) : State := s.emit [.notice kind payload]

/-- A block's result for a command in hand (R178). -/
def State.reply (s : State) (r : CmdRef) (result : Result) (payload : List Byte := []) : State :=
  s.emit [.blockResult r result payload]

/-- Units of the room-crystal timers in one second: one unit per sampling of the lines (R160, log 4). -/
def unitsPerSecond : Nat := 1024

/-- Milliseconds as units of the room-crystal timers, rounded up. -/
def unitsOfMs (ms : Nat) : Nat := (ms * 1024 + 999) / 1000

/-- Whole seconds left of a timer, rounded up. -/
def secondsLeft (units : Nat) : Nat := (units + 1023) / 1024

/-- One unit gone from a timer, if it runs. -/
def ticked (t : Option Nat) : Option Nat := t.map (· - 1)

/-- The room is unused (R166). -/
def Pcu.unused (p : Pcu) : Bool := !p.bookingCurrent && p.floorEmpty && p.shareEmpty

/-- The idle timer as R167 starts and restarts it: only in FULL, in an unused room, with an idle time that is not 0. -/
def idleStarted (idleMinutes : Nat) (p : Pcu) : Option Nat :=
  if p.power = some .full ∧ p.unused = true ∧ idleMinutes ≠ 0 then some (idleMinutes * 60 * unitsPerSecond) else none

/-- A restart of the idle timer (R167). -/
def State.restartIdle (s : State) : State := { s with pcu := { s.pcu with idle := idleStarted s.settings.idleTime s.pcu } }

/-- Whether the held facts or the power state let the timer run; it starts when the room becomes unused and stops when it
ceases to be (R167). -/
def State.refreshIdle (s : State) (wasUnused : Bool) : State :=
  if s.pcu.unused then (if wasUnused then s else s.restartIdle)
  else { s with pcu := { s.pcu with idle := none } }

/-- The commands in hand of a port with one of them marked as waiting for FULL (R172). -/
def markWaiting (tag : Nat) (l : List InHand) : List InHand :=
  l.map fun h => if h.tag = tag then { h with waitsFull := true } else h

/-- A wake source of the hub in QUIET or SLEEP (R171, R172). -/
def State.wakeForCommand (s : State) : State :=
  if s.pcu.power = some .quiet ∨ s.pcu.power = some .sleep then s.emit [.wakeRequest .command] else s

/-- A command that needs FULL, taken in another state: it waits in hand, and it wakes the room (R172). -/
def State.waitForFull (s : State) (r : CmdRef) : State :=
  let p := s.cph.ports.get r.port
  { s with cph := { s.cph with ports := s.cph.ports.upd r.port { p with inHand := markWaiting r.tag p.inHand } } }.wakeForCommand

/-- The effect of a command that needs FULL (R172): the command itself in FULL, and the wait otherwise. -/
def State.whenFull (s : State) (r : CmdRef) (effect : State → State) : State :=
  if s.pcu.power = some .full then effect s else s.waitForFull r

/-- A numeric setting command (00_scope, Settings; R77): a value that is no number is refused, one out of range is clamped
and answered CLAMPED with the value in force, one in range is set and answered OK. -/
def State.setNumber (s : State) (r : CmdRef) (lo hi : Int) (value : NumArg) (shown : Int → List Byte)
    (set : Int → State → State) : State :=
  match value with
  | none => s.reply r .badArgument
  | some v =>
    if lo ≤ v ∧ v ≤ hi then (set v s).reply r .ok
    else (set (clampInt lo hi v) s).reply r .clamped (shown (clampInt lo hi v))

/-- A command over a run of seats or indexes: a count outside `lo..16`, or a run past the end, is refused (R17, R76, R115, R126). -/
def runIsBad (first count lo size : Nat) : Bool := count < lo || 16 < count || size < first + count || size ≤ first

/-- The table indexes of a run, in ascending order. -/
def runOf (size first count : Nat) : List (Fin size) :=
  (List.finRange size).filter fun i => first ≤ i.val && i.val < first + count

/-- The name the working copy of the participant table gives an index, and the note: blank when the slot is empty. -/
def State.participant (s : State) (p : Option PIdx) : Participant :=
  match p with
  | none => ⟨[], []⟩
  | some i => (s.bks.participants.get i).getD ⟨[], []⟩

/-- An instant as seconds (R135): one is earlier than another when its day is lower, or the second on the same day. -/
def instant (day second : Nat) : Nat := day * 86400 + second

/-- The instant a booking time names (R135). -/
def instantOf (t : DayMinute) : Nat := instant t.day (60 * t.minute)

/-- The room clock's day and second as they stand (R135). -/
def State.now (s : State) : Nat := instant s.msc.day s.msc.second

/-- A live booking (00_scope, Terms). -/
def isLive : BState → Bool
  | .scheduled | .pending | .awaiting | .active | .ending => true
  | .ended | .released | .cancelled => false

/-- A state that makes a booking the current one (R137, section 7.2). -/
def isCurrent : BState → Bool
  | .pending | .awaiting | .active | .ending => true
  | .scheduled | .ended | .released | .cancelled => false

/-- The current booking's slot (07 section 7.2). -/
def State.currentSlot (s : State) : Option BSlot :=
  (List.finRange 32).find? fun b => match s.bks.bookings.get b with
    | some k => isCurrent k.state
    | none => false

/-- A meeting that blocks QUIET and SLEEP: a booking AWAITING, ACTIVE or ENDING (R170). -/
def State.meetingRuns (s : State) : Bool :=
  (List.finRange 32).any fun b => match s.bks.bookings.get b with
    | some k => k.state = .awaiting || k.state = .active || k.state = .ending
    | none => false

end Sys2Proof.Machine
end

