-- ==== Sys2Proof/Machine/Wire.lean ====
section
/-! DEFINITION. How payloads are written (R188, R189): numbers, named values, texts, sets, and the payload of each notice. -/

namespace Sys2Proof.Machine

open Sys2Proof

/-! ## Fields -/

/-- A one-byte field. -/
def u8 (n : Nat) : List Byte := [BitVec.ofNat 8 n]

/-- A two-byte field, most significant byte first. -/
def u16 (n : Nat) : List Byte := [BitVec.ofNat 8 (n / 256), BitVec.ofNat 8 n]

/-- A four-byte field. -/
def u32 (n : Nat) : List Byte := u16 (n / 65536) ++ u16 n

/-- A signed two-byte field, in two's complement. -/
def i16 (z : Int) : List Byte := u16 (z % 65536).toNat

/-- Yes, on and set are 01; no, off and clear are 00. -/
def flagByte (b : Bool) : List Byte := u8 (if b then 1 else 0)

/-- An optional one-byte value: FF when absent. -/
def optU8 (o : Option Nat) : List Byte := u8 (o.getD 255)

/-- An optional unsigned two-byte value: FFFF when absent. -/
def optU16 (o : Option Nat) : List Byte := u16 (o.getD 65535)

/-- A gain: MUTE is 7FFF. -/
def gainField : Gain → List Byte
  | .mute => u16 0x7FFF
  | .code c => i16 c

/-- A text: its number of characters, then the characters. -/
def textField (t : Text) : List Byte := u8 t.length ++ t

/-- A set in `width` bytes: member `i` is bit `i`, the first value in the lowest bit of the last byte. -/
def setField (width : Nat) (members : List Nat) : List Byte :=
  let v := (List.range (8 * width)).foldl (fun a i => if i ∈ members then a + 2 ^ i else a) 0
  (List.range width).map fun k => BitVec.ofNat 8 (v / 2 ^ (8 * (width - 1 - k)))

/-- A list: a count byte, then the entries. -/
def listField {α : Type} (entry : α → List Byte) (l : List α) : List Byte := u8 l.length ++ l.flatMap entry

/-- A day and a minute. -/
def dayMinuteField (t : DayMinute) : List Byte := u16 t.day ++ u16 t.minute

/-- A seat number or FF. -/
def optSeat (o : Option Seat) : List Byte := optU8 (o.map (·.val))

/-- A participant index or FF. -/
def optIndex (o : Option PIdx) : List Byte := optU8 (o.map (·.val))

/-- A set of seats takes 8 bytes. -/
def seatSet (p : Seat → Bool) : List Byte := setField 8 ((allSeats.filter p).map (·.val))

/-- The store slot's number (R116). -/
def StoreSlot.number : StoreSlot → Nat
  | .booking b => b.val
  | .participant p => 32 + p.val
  | .settings => 128

/-- The number of a queue entry's origin, in the list of R22: KEY, PORT, VOICE. -/
def queueOriginCode : Origin → Nat
  | .voice => 2
  | .port => 1
  | _ => 0

/-! ## Notices (10 section 10.7) -/

/-- Causes of a FLOOR notice, in the order of R189. -/
inductive FloorCause
  | command | keyEvent | voiceReport | secondEvent | flashExpiry | report
  deriving DecidableEq, Repr, Inhabited

/-- Causes of a SHARE notice, in the order of R189. -/
inductive ShareCause
  | command | keyEvent | lossExpiry | graceExpiry | report
  deriving DecidableEq, Repr, Inhabited

/-- FLOOR: cause, speakers with origins, queue, override set (R37). The seats of the override set stand in the order in which they joined
it (log 53). -/
def floorPayload (cause : FloorCause) (f : Flc) : List Byte :=
  u8 cause.ctorIdx
    ++ listField (fun e : SpeakerEntry => u8 e.seat.val ++ u8 e.origin.ctorIdx) f.speakers
    ++ listField (fun q : QueueEntry => u8 q.seat.val) f.queue
    ++ listField (fun x : Seat => u8 x.val) f.overrides

/-- SEAT: seat, presence, kind. -/
def seatPayload (x : Seat) (p : Presence) (k : UnitKind) : List Byte := u8 x.val ++ u8 p.ctorIdx ++ u8 k.ctorIdx

/-- State of a share entry as its list in 05 section 5.3 numbers it. -/
def ShareState.code : ShareState → Nat
  | .waiting => 0
  | .shown _ => 1
  | .grace _ _ => 2

/-- The slot a share entry holds. -/
def ShareState.slot : ShareState → Option SlotId
  | .waiting => none
  | .shown k => some k
  | .grace k _ => some k

def shareEntryField (e : ShareEntry) : List Byte :=
  u8 e.point.val ++ u8 e.seat.val ++ u8 e.state.code ++ flagByte e.approved
    ++ optU8 (e.state.slot.map (·.ctorIdx))

/-- A composition: layout, the source of each slot, whether there is a caption, and its text (log 18). -/
def compositionField (c : Composition) : List Byte :=
  u8 c.layout.ctorIdx ++ [Config.shownCode c.left] ++ (c.right.map Config.shownCode).toList
    ++ flagByte c.caption.isSome ++ textField (c.caption.getD [])

/-- SHARE (R109). -/
def sharePayload (cause : ShareCause) (v : Scr) : List Byte :=
  u8 cause.ctorIdx ++ listField shareEntryField v.shares
    ++ (List.finRange 16).flatMap (fun p => u8 (if (v.points.get p).signal then 1 else 0))
    ++ compositionField v.screens.front ++ compositionField v.screens.rear

/-- LINE: line, edge, settled level, function (R160). -/
def linePayload (l : Line) (e : LineEdge) (level : PinLevel) (fn : LineFn) : List Byte :=
  u8 l.val ++ u8 e.ctorIdx ++ u8 level.ctorIdx ++ u8 fn.ctorIdx

/-- POWER: old state (FF when there was none), new state, cause (R168, R171). -/
def powerPayload (old : Option Power) (new : Option Power) (cause : PowerCause) : List Byte :=
  optU8 (old.map (·.ctorIdx)) ++ optU8 (new.map (·.ctorIdx)) ++ [Config.powerCauseCode cause]

/-- Causes of an AUTHORITY notice, in the order of R186. -/
inductive AuthorityCause
  | claim | release | expiry | portReset
  deriving DecidableEq, Repr, Inhabited

def portByte (o : Option Port) : List Byte := optU8 (o.map (·.val))

/-- The holders of FLOOR, MIX, ROUTE, BOOK and ROOM. -/
def holdersField (t : AuthorityTable) : List Byte :=
  portByte t.floor ++ portByte t.mix ++ portByte t.route ++ portByte t.book ++ portByte t.room

/-- AUTHORITY (R186). -/
def authorityPayload (cause : AuthorityCause) (p : Port) (t : AuthorityTable) : List Byte :=
  u8 cause.ctorIdx ++ u8 p.val ++ holdersField t

/-- STORE: held, slots in the queue, slot WRITING or FF (R130). -/
def storePayload (b : Bks) : List Byte :=
  flagByte b.supplyHeld ++ u8 b.queue.length ++ optU8 (b.writing.map (·.slot.number))

/-- CLOCK: state, day, second of the day (R136, R137). -/
def clockPayload (m : Msc) : List Byte := u8 m.clock.ctorIdx ++ u16 m.day ++ u32 m.second

/-- Causes of a BOOKING notice in the order of R127. -/
inductive BookingCause
  | added | edited | cancelled | deleted | participantAdded | participantEdited | participantDeleted
  deriving DecidableEq, Repr, Inhabited

/-- BOOKING for a booking cause of R127, with the reclaimed calendar reference when there is one. -/
def bookingPayload (cause : BookingCause) (slot : BSlot) (ref : BitVec 32) (reclaimed : Option (BitVec 32)) : List Byte :=
  u8 cause.ctorIdx ++ u8 slot.val ++ u32 ref.toNat ++ (reclaimed.map (fun r => u32 r.toNat)).getD []

/-- BOOKING for a participant cause of R127. -/
def participantPayload (cause : BookingCause) (p : PIdx) : List Byte := u8 cause.ctorIdx ++ u8 p.val

/-- BOOKING with cause TRANSITION (R138). -/
def transitionPayload (slot : BSlot) (ref : BitVec 32) (old new : BState) : List Byte :=
  [Config.bookingCauseTransition] ++ u8 slot.val ++ u32 ref.toNat ++ u8 old.ctorIdx ++ u8 new.ctorIdx

/-- BOOKING with cause CHECKED-IN (R142). -/
def checkedInPayload (slot : BSlot) (ref : BitVec 32) : List Byte :=
  [Config.bookingCauseCheckedIn] ++ u8 slot.val ++ u32 ref.toNat

end Sys2Proof.Machine
end

