-- ==== Sys2Proof/Machine/PowerOps.lean ====
section
/-! DEFINITION. The entries to the power states (R168, R169, R171, R172), which several rows share. -/

namespace Sys2Proof.Machine

open Sys2Proof

/-- The blocks that hold a copy of the power state, in the order of R168's list. -/
def powerHolders : List BlockId := [.tbc, .flc, .mix, .vdt, .scr, .rln]

/-- The power state and phase reported to each block that holds them (R168, R171). -/
def State.tellPower (s : State) (p : Power) (phase : Option Phase) : State :=
  s.emit (powerHolders.map fun b => .powerStateReport b p phase)

/-- A change of the power state: held, copied into the always-on domain (R175), reported, and noticed with its cause. -/
def State.setPower (s : State) (p : Power) (phase : Option Phase) (cause : PowerCause) : State :=
  ({ s with pcu := { s.pcu with power := some p, phase := phase, keptPower := some p } }.tellPower p phase).notify .power
    (powerPayload s.pcu.power (some p) cause)

/-- The sleep timer as an entry to QUIET starts it (R168). -/
def sleepStarted (delayMinutes : Nat) : Option Nat :=
  if delayMinutes = 0 then none else some (delayMinutes * 60 * unitsPerSecond)

/-- Entry to QUIET (R168). -/
def State.enterQuiet (s : State) (cause : PowerCause) : State :=
  { s with pcu := { s.pcu with idle := none, sleep := sleepStarted s.settings.sleepDelay } }.setPower .quiet none cause

/-- Entry to SLEEP (R169): the audio crystal stops and the sleep timer with QUIET. -/
def State.enterSleep (s : State) (cause : PowerCause) : State :=
  { s with pcu := { s.pcu with sleep := none, audio := .stopped } }.setPower .sleep none cause

/-- A wake source (R171): QUIET wakes through POLL-PASS, SLEEP through POWER-SETTLE with the audio crystal started;
in any other state it does nothing. -/
def State.wakeUp (s : State) (cause : PowerCause) : State :=
  match s.pcu.power with
  | some .quiet => { s with pcu := { s.pcu with sleep := none } }.setPower .waking (some .pollPass) cause
  | some .sleep => { s with pcu := { s.pcu with sleep := none, audio := .settling } }.setPower .waking (some .powerSettle) cause
  | _ => s

/-- What goes out when a command in hand is handed to its block: its row, or the block's refusal of a parameter list
that does not parse (log 10). -/
def handedRow (p : Port) (h : InHand) : Instr := h.row.getD (.blockResult ⟨p, h.tag⟩ .badArgument [])

/-- The commands of a port that wait for FULL, in the order the port took them, as they are handed to their blocks. -/
def waitingRows (p : Port) (t : PortState) : List Instr := (t.inHand.filter (·.waitsFull)).map (handedRow p)

/-- A port with none of its commands waiting for FULL. -/
def PortState.noneWaiting (t : PortState) : PortState :=
  { t with inHand := t.inHand.map fun h => { h with waitsFull := false } }

/-- The commands that wait for FULL are handed to their blocks, port by port (R172). Each is a restart of the idle timer
(R167), which runs from the same moment. -/
def State.releaseWaiting (s : State) : State :=
  { s with cph := { s.cph with ports := Tab.gen fun p => (s.cph.ports.get p).noneWaiting } }.emit
    ((List.finRange 3).flatMap fun p => waitingRows p (s.cph.ports.get p))

/-- Entry to FULL (R171, R172): reported and noticed, the idle timer starts in an unused room, and the waiting commands run. -/
def State.enterFull (s : State) : State := (s.setPower .full none .settled).restartIdle.releaseWaiting

end Sys2Proof.Machine
end

