-- ==== Sys2Proof/Machine/Cph.lean ====
section
/-! DEFINITION. The Client Port Hub (chapter 10). -/

namespace Sys2Proof.Machine

open Sys2Proof

/-! ## Ports -/

def allPorts : List Port := List.finRange 3

def State.port (s : State) (p : Port) : PortState := s.cph.ports.get p

def State.putPort (s : State) (p : Port) (t : PortState) : State := { s with cph := { s.cph with ports := s.cph.ports.upd p t } }

/-- Records waiting plus commands in hand (R179). -/
def PortState.places (t : PortState) : Nat := t.events.length + t.inHand.length

/-- The attention line is asserted while the event queue is not empty (R179). -/
def PortState.attention (t : PortState) : Bool := !t.events.isEmpty

/-- A record appended; it carries the gap mark, which clears (R180). -/
def PortState.append (t : PortState) (e : EventRecord) : PortState :=
  { t with events := t.events ++ [{ e with gap := t.gap }], gap := false }

/-- The longest payload of an event record (R188). -/
def payloadLimit : Nat := 1024

/-- A payload as a record carries it (R188): whole where it fits. What the record carries of a longer one is not stated, and is a
free value of at most 1024 bytes (log 37). -/
def boundedPayload (payload : List Byte) : List Byte :=
  if payload.length ≤ payloadLimit then payload else (Config.overlongPayload payload).take payloadLimit

/-- A completion record (R188). -/
def completionRecord (h : InHand) (result : Result) (payload : List Byte) : EventRecord :=
  ⟨false, false, h.code, h.cookie, result.ctorIdx, boundedPayload payload⟩

/-- A notice kind's number (R188). -/
def NoticeKind.number (k : NoticeKind) : Nat := k.ctorIdx + 1

/-- A notice record (R188). -/
def noticeRecord (k : NoticeKind) (payload : List Byte) : EventRecord := ⟨true, false, NoticeKind.number k, 0, 0, payload⟩

/-- A notice offered to a port (R180). -/
def PortState.offered (k : NoticeKind) (payload : List Byte) (t : PortState) : PortState :=
  if k ∈ t.subs then (if t.places < 32 then t.append (noticeRecord k payload) else { t with gap := true }) else t

/-- A command in hand completed (R178, R179): its record appended, the command gone from hand. -/
def PortState.completed (t : PortState) (tag : Nat) (result : Result) (payload : List Byte) : PortState :=
  match t.inHand.find? (fun h => h.tag = tag) with
  | some h => { t with inHand := t.inHand.filter fun g => g.tag ≠ tag }.append (completionRecord h result payload)
  | none => t

/-- NOTICE (R180): offered to each port. -/
def execNotice (kind : NoticeKind) (payload : List Byte) (s : State) : Out :=
  let s := s.taking (.notice kind payload)
  .next { s with cph := { s.cph with ports := Tab.gen fun p => (s.port p).offered kind payload } }

/-- BLOCK_RESULT (R178): the result of a command no longer in hand is discarded (R182). -/
def execBlockResult (r : CmdRef) (result : Result) (payload : List Byte) (s : State) : Out :=
  let s := s.taking (.blockResult r result payload)
  .next (s.putPort r.port ((s.port r.port).completed r.tag result payload))

/-! ## Frames (R177, R188) -/

/-- A check closes a part of a frame: the two bytes after `body`. -/
def checkOf (body : List Byte) : List Byte :=
  let c := (frameCheck body).toNat
  [BitVec.ofNat 8 (c / 256), BitVec.ofNat 8 c]

/-- The body of a request part whose check is right. -/
def checkedBody (request : List Byte) : Option (List Byte) :=
  let body := request.take (request.length - 2)
  if 2 ≤ request.length ∧ request = body ++ checkOf body then some body else none

/-- A command record: code, cookie and parameters (R188). -/
structure CommandRecord where
  code : Nat
  cookie : Nat
  params : List Byte
  deriving DecidableEq, Repr

/-- The command record of a POST's body: type 01, a length of 8 to 264 that agrees with the record, and a parameter length that
agrees with it (R178, R188). -/
def postRecord (body : List Byte) : Option CommandRecord := do
  let (type, l) ← byteField body
  let (n, l) ← wordField l
  if type = 1 ∧ 8 ≤ n ∧ n ≤ 264 ∧ l.length = n then
    let (code, l) ← wordField l
    let (cookie, l) ← longField l
    let (p, params) ← wordField l
    if p ≤ 256 ∧ params.length = p then some ⟨code, cookie, params⟩ else none
  else none

/-- A frame whose request is a type byte and its check. -/
def isShortFrame (type : Nat) (request : List Byte) : Bool := checkedBody request = some [BitVec.ofNat 8 type]

/-- The part's answers. -/
def State.answer (s : State) (p : Port) (bytes : List Byte) : State := s.putPort p { s.port p with answer := bytes }

/-- An event record as its bytes (R188). -/
def recordBytes (e : EventRecord) : List Byte :=
  let two (n : Nat) : List Byte := [BitVec.ofNat 8 (n / 256), BitVec.ofNat 8 n]
  [if e.isNotice then 1 else 0, if e.gap then 1 else 0] ++ two e.code
    ++ two (e.cookie.toNat / 65536) ++ two e.cookie.toNat ++ [BitVec.ofNat 8 e.result] ++ two e.payload.length ++ e.payload

/-- The answer part of a FETCH that returns a record (R188). -/
def recordAnswer (e : EventRecord) : List Byte :=
  let r := recordBytes e
  let part : List Byte := [1, BitVec.ofNat 8 (r.length / 256), BitVec.ofNat 8 r.length] ++ r
  part ++ checkOf part

/-! ## Taking a command (R178) -/

/-- The port holds an authority. -/
def AuthorityTable.get (t : AuthorityTable) : Authority → Option Port
  | .floor => t.floor
  | .mix => t.mix
  | .route => t.route
  | .book => t.book
  | .room => t.room

def AuthorityTable.set (t : AuthorityTable) (a : Authority) (o : Option Port) : AuthorityTable :=
  match a with
  | .floor => { t with floor := o }
  | .mix => { t with mix := o }
  | .route => { t with route := o }
  | .book => { t with book := o }
  | .room => { t with room := o }

/-- The authorities a port holds, in the order of the five. -/
def AuthorityTable.heldBy (t : AuthorityTable) (p : Port) : List Authority := authorityNames.filter fun a => t.get a = some p

/-- A command that waits for FULL when the room is not FULL (R172). -/
def State.mustWait (s : State) (c : Command) : Bool := c.needsFull && s.pcu.power ≠ some .full

/-- A restart of the idle timer by a command that needs an authority or is WAKE (R167). -/
def State.restartFor (s : State) (c : Command) : State := if c.authority.isSome || c.needsFull then s.restartIdle else s

/-- A command of a code that names one, with the authority it needs (R178): handed to its block, or waiting for FULL. A command of the
hub's own is handed over in the same way, and acts in a later step (log 57). -/
def State.handOver (s : State) (p : Port) (h : InHand) (c : Command) : State :=
  if s.mustWait c then
    (s.putPort p { s.port p with inHand := (s.port p).inHand ++ [{ h with waitsFull := true }] }).wakeForCommand
  else
    ((s.putPort p { s.port p with inHand := (s.port p).inHand ++ [h] }).emit [handedRow p h]).restartFor c

/-- A command completed by the hub as it is taken (R178). -/
def State.completeAtOnce (s : State) (p : Port) (h : InHand) (result : Result) : State :=
  s.putPort p ((s.port p).append (completionRecord h result []))

/-- A command taken (R178): UNKNOWN, NO-AUTHORITY, or handed over. -/
def State.take (s : State) (p : Port) (c : CommandRecord) : State :=
  let tag := s.cph.nextTag
  let s1 := { s with cph := { s.cph with nextTag := tag + 1 } }
  let hand (row : Option Instr) : InHand := ⟨tag, c.code, BitVec.ofNat 32 c.cookie, row, false⟩
  match commandOf c.code with
  | none => s1.completeAtOnce p (hand none) .unknown
  | some k =>
    if k.authority.all fun a => s.cph.holder.get a = some p then s1.handOver p (hand (k.row ⟨p, tag⟩ c.params)) k
    else s1.completeAtOnce p (hand none) .noAuthority

/-- The port has no place for a command (R178). -/
def PortState.isFull (t : PortState) : Bool := 8 ≤ t.inHand.length || 32 ≤ t.places

/-- The ports run from the sixth step of the start-up sequence on (R177). -/
def State.portsRun (s : State) : Bool := s.pcu.power.isSome

/-- The answer of a POST: 00 TAKEN, 01 FULL, 02 MALFORMED. -/
def takenAnswer : List Byte := [0]

def fullAnswer : List Byte := [1]

def malformedAnswer : List Byte := [2]

/-- A POST whose answer part was reached (R178). -/
def State.answerPost (s : State) (p : Port) (f : Frame) : State :=
  if !s.portsRun then s.answer p fullAnswer
  else match f.close, (checkedBody f.request).bind postRecord with
    | .whole, some c => if (s.port p).isFull then s.answer p fullAnswer else (s.answer p takenAnswer).take p c
    | _, _ => s.answer p malformedAnswer

/-- POST (R178). A frame that ends before its answer part gets none and changes nothing (R177). -/
def execPost (p : Port) (f : Frame) (s : State) : Out :=
  .next (if f.close = .beforeAnswer then s.answer p [] else s.answerPost p f)

/-- A FETCH whose answer part was reached (R179): 00 EMPTY, 01 RECORD with the oldest record, 02 MALFORMED. -/
def State.answerFetch (s : State) (p : Port) (f : Frame) : State :=
  if !s.portsRun then s.answer p [0]
  else if f.close = .whole ∧ isShortFrame 2 f.request then
    match (s.port p).events with
    | [] => s.answer p [0]
    | e :: rest => (s.putPort p { s.port p with events := rest }).answer p (recordAnswer e)
  else s.answer p malformedAnswer

/-- FETCH (R179). -/
def execFetch (p : Port) (f : Frame) (s : State) : Out :=
  .next (if f.close = .beforeAnswer then s.answer p [] else s.answerFetch p f)

/-! ## Authority (section 10.5) -/

/-- Every authority for which `p` holds, freed. -/
def AuthorityTable.freed (t : AuthorityTable) (p : Authority → Bool) : AuthorityTable :=
  authorityNames.foldl (fun u a => if p a then u.set a none else u) t

/-- An AUTHORITY notice when the table changed (R186). -/
def State.tellAuthority (s : State) (cause : AuthorityCause) (p : Port) (before : AuthorityTable) : State :=
  if s.cph.holder = before then s else s.notify .authority (authorityPayload cause p s.cph.holder)

/-- Authorities of a port released, and the notice (R184, R185, R182). -/
def State.freeAuthorities (s : State) (cause : AuthorityCause) (p : Port) (which : Authority → Bool) : State :=
  let t := s.cph.holder
  { s with cph := { s.cph with holder := t.freed fun a => which a && t.get a = some p } }.tellAuthority cause p t

/-- The port's presence timer stopped and its token forgotten. -/
def PortState.unclaimed (t : PortState) : PortState := { t with timer := none, token := none }

/-- PRESENCE_TIMER_EXPIRY (R185): a stopped timer does not expire. -/
def execPresenceTimerExpiry (p : Port) (s : State) : Out :=
  .next (if (s.port p).timer.isSome then
      (s.putPort p (s.port p).unclaimed).freeAuthorities .expiry p fun _ => true
    else s)

/-- The rows of a port's commands in hand that have been handed over and not yet executed. -/
def State.handedRows (s : State) (p : Port) : List Instr := (s.port p).inHand.map (handedRow p)

/-- PORT-RESET (R182): the commands in hand are discarded, the queues emptied, the authorities released. -/
def State.resetPort (s : State) (p : Port) : State :=
  ({ s with flight := s.flight.filter fun c => !(s.handedRows p).contains c }.putPort p
    { window := (s.port p).window }).freeAuthorities .portReset p fun _ => true

/-- PORT_RESET (R182, R177): a damaged frame changes nothing. -/
def execPortReset (p : Port) (f : Frame) (s : State) : Out :=
  .next (if f.close = .whole ∧ isShortFrame 3 f.request then s.resetPort p else s)

/-! ## The hub's commands -/

/-- A subscription set with AUTHORITY kept in it, in the order of the kinds (R181). -/
def subscription (kinds : List NoticeKind) : List NoticeKind := noticeKindNames.filter fun k => k = .authority || kinds.contains k

/-- A set of notice kinds as a payload field. -/
def kindsField (kinds : List NoticeKind) : List Byte := setField 2 (kinds.map (·.ctorIdx))

/-- A set of authorities as a payload field. -/
def authoritiesField (as : List Authority) : List Byte := setField 1 (as.map (·.ctorIdx))

/-- SUBSCRIBE (R181). -/
def execSubscribe (r : CmdRef) (kinds : Option (List NoticeKind)) (s : State) : Out :=
  let s := s.taking (.subscribe r kinds)
  .next (match kinds with
    | none => s.reply r .badArgument
    | some ks =>
      (s.putPort r.port { s.port r.port with subs := subscription ks }).reply r .ok (kindsField (subscription ks)))

/-- The table after a claim: every wanted authority that no port holds (R183). -/
def AuthorityTable.claimed (t : AuthorityTable) (p : Port) (wanted : List Authority) : AuthorityTable :=
  authorityNames.foldl (fun u a => if wanted.contains a && (t.get a).isNone then u.set a (some p) else u) t

/-- A port after a claim: the window, and the presence timer when it then holds an authority (R183). -/
def PortState.claiming (window : Nat) (holds : Bool) (t : PortState) : PortState :=
  if holds then { t with window := window, timer := some (window * unitsPerSecond), token := none }
  else { t with window := window, timer := none }

/-- A claim that is not refused (R183). -/
def State.claimFor (s : State) (r : CmdRef) (wanted : List Authority) (given : Int) : State :=
  let window := (clampInt 1 60 given).toNat
  let before := s.cph.holder
  let after := before.claimed r.port wanted
  let others := authorityNames.filter fun a => wanted.contains a && (after.get a).any fun q => q ≠ r.port
  let inRange : Bool := 1 ≤ given && given ≤ 60
  (({ s with cph := { s.cph with holder := after } }.putPort r.port
    ((s.port r.port).claiming window (after.heldBy r.port ≠ []))).tellAuthority .claim r.port before).reply r
    (if inRange then .ok else .clamped)
    (authoritiesField (after.heldBy r.port) ++ authoritiesField others ++ (if inRange then [] else
      [BitVec.ofNat 8 (window / 256), BitVec.ofNat 8 window]))

/-- CLAIM (R183). -/
def execClaim (r : CmdRef) (wanted : Option (List Authority)) (window : NumArg) (s : State) : Out :=
  let s := s.taking (.claim r wanted window)
  .next (match wanted, window with
    | some (a :: as), some w => s.claimFor r (a :: as) w
    | _, _ => s.reply r .badArgument)

/-- RELEASE (R184): an empty set means all the port holds. -/
def execRelease (r : CmdRef) (named : Option (List Authority)) (s : State) : Out :=
  let s := s.taking (.release r named)
  .next (match named with
    | none => s.reply r .badArgument
    | some as =>
      let s1 := s.freeAuthorities .release r.port fun a => as = [] || as.contains a
      let left := s1.cph.holder.heldBy r.port
      (if left = [] then s1.putPort r.port (s1.port r.port).unclaimed else s1).reply r .ok (authoritiesField left))

/-- PRESENCE (R185): the first case that holds decides. -/
def execPresence (r : CmdRef) (token : Option Token) (s : State) : Out :=
  let s := s.taking (.presence r token)
  .next (match token with
    | none => s.reply r .badArgument
    | some k =>
      let t := s.port r.port
      if s.cph.holder.heldBy r.port = [] then s.reply r .state
      else if t.token = some k then s.reply r .repeated
      else (s.putPort r.port { t with token := some k, timer := some (t.window * unitsPerSecond) }).reply r .ok)

/-- The part's name: Foszalen Fincora FT-64. -/
def partName : Text :=
  [0x46, 0x6F, 0x73, 0x7A, 0x61, 0x6C, 0x65, 0x6E, 0x20, 0x46, 0x69, 0x6E, 0x63, 0x6F, 0x72, 0x61, 0x20, 0x46, 0x54, 0x2D, 0x36, 0x34]

/-- The identity (R187): name, silicon revision B as a text of one character, protocol level 3, and the capacities, the
open limit in two bytes and the others in one (log 44). -/
def identity : List Byte :=
  textField partName ++ textField [0x42] ++ u16 3 ++ u8 64 ++ u16 8 ++ u8 24 ++ u8 16 ++ u8 2 ++ u8 32 ++ u8 96 ++ u8 3 ++ u8 8
    ++ u8 32 ++ u8 8

/-- IDENTIFY (R187). -/
def execIdentify (r : CmdRef) (s : State) : Out := .next ((s.taking (.identify r)).reply r .ok identity)

/-- STATUS's payload, in the order of R187. Times left are whole seconds, rounded up (log 18). The last accepted token is A 00, B 01 and
none FF, the numbers of R185's list (log 44). -/
def State.statusReport (s : State) (p : Port) : List Byte :=
  let t := s.port p
  u8 s.pcu.start.cause.ctorIdx ++ flagByte s.pcu.start.wasAsleep ++ u8 s.pcu.start.torn
    ++ optU8 (s.pcu.power.map (·.ctorIdx)) ++ optU8 (s.pcu.phase.map (·.ctorIdx))
    ++ optU16 (s.pcu.idle.map secondsLeft) ++ optU16 (s.pcu.sleep.map secondsLeft)
    ++ u8 s.pcu.room.ctorIdx ++ u8 s.pcu.audio.ctorIdx ++ u8 s.msc.clock.ctorIdx
    ++ storePayload s.bks ++ holdersField s.cph.holder
    ++ u8 t.inHand.length ++ u8 t.events.length ++ flagByte t.gap ++ kindsField t.subs ++ u16 t.window
    ++ optU16 (t.timer.map secondsLeft) ++ optU8 (t.token.map (·.ctorIdx))

/-- STATUS (R187). -/
def execStatus (r : CmdRef) (s : State) : Out :=
  let s := s.taking (.status r)
  .next (s.reply r .ok (s.statusReport r.port))

end Sys2Proof.Machine
end

