-- ==== Sys2Proof/Machine/Tbc.lean ====
section
/-! DEFINITION. The Table Bus Controller (chapter 1). -/

namespace Sys2Proof.Machine

open Sys2Proof

/-- The seat at an address of a branch (R1). -/
def seatAt (b : Branch) (a : Fin 32) : Seat :=
  match b with
  | .left => ⟨a.val, by omega⟩
  | .right => ⟨32 + a.val, by omega⟩

/-- Whether the branches are polled (R1, R173): the bus is powered and settled, and the audio crystal runs. -/
def State.polls (s : State) : Bool :=
  s.pcu.audio = .running && match s.tbc.power with
    | some .full => true
    | some .quiet => true
    | some .waking => s.tbc.phase ≠ some .powerSettle
    | some .sleep => false
    | none => false

/-- Whether a kind carries a key (R2). -/
def carries : UnitKind → Key → Bool
  | .noUnit, _ => false
  | .delegate, k => k = .mic
  | .chair, k => k = .mic || k = .priority || k = .next
  | .delegateShare, k => k = .mic || k = .share

/-- The keys of the part, in the order of R2. -/
def allKeys : List Key := [.mic, .priority, .next, .share]

def Tbc.put (t : Tbc) (x : Seat) (v : TbcSeat) : Tbc := { t with seats := t.seats.upd x v }

def State.putTbcSeat (s : State) (x : Seat) (v : TbcSeat) : State := { s with tbc := s.tbc.put x v }

/-! ## The poll -/

/-- The item a poll carries, and the record after it (R3, R13). -/
def pollItem (ring : Ring) (plate : Plate) (t : TbcSeat) : PollItem × TbcSeat :=
  if t.presence = .online then
    if t.ringMark = .pending then (.ring ring, { t with ringMark := .sent })
    else if t.plateMark = .pending then (.plate plate, { t with plateMark := .sent })
    else (.nothing, t)
  else (.nothing, t)

/-- The branch's next address after this poll, and the mark of a completed cycle (R1, R171). -/
def Tbc.advance (t : Tbc) (b : Branch) : Tbc :=
  match b with
  | .left => { t with nextLeft := t.nextLeft + 1, passLeft := t.passLeft || t.nextLeft = 31 }
  | .right => { t with nextRight := t.nextRight + 1, passRight := t.passRight || t.nextRight = 31 }

def Tbc.nextAddress (t : Tbc) (b : Branch) : Fin 32 :=
  match b with
  | .left => t.nextLeft
  | .right => t.nextRight

/-- One poll of the branch's next address (R1, R3). -/
def State.pollOnce (s : State) (b : Branch) : State :=
  let x := seatAt b (s.tbc.nextAddress b)
  let out := pollItem (s.flc.seats.get x).ring (s.scr.seats.get x).plate (s.tbc.seats.get x)
  { s with tbc := { (s.tbc.put x out.2).advance b with lastPoll := some (x, out.1) } }

/-- The end of POLL-PASS: each branch has completed one cycle since the wake (R171). -/
def State.pollPassOver (s : State) : Bool :=
  s.pcu.phase = some .pollPass && s.tbc.phase = some .pollPass && s.tbc.passLeft && s.tbc.passRight

/-- POLL (R3). On a bus that is not polled nothing happens (R1). -/
def execPoll (b : Branch) (s : State) : Out :=
  .next (if s.polls then (if (s.pollOnce b).pollPassOver then (s.pollOnce b).enterFull else s.pollOnce b) else s)

/-! ## Audio (R14) -/

/-- Audio is carried on both branches (R14): FULL, or WAKING outside its POWER-SETTLE phase, by the TBC's own copy of the
power state (log 35), with the audio crystal running (R173). -/
def State.carriesAudio (s : State) : Bool :=
  s.pcu.audio = .running && match s.tbc.power with
    | some .full => true
    | some .waking => s.tbc.phase ≠ some .powerSettle
    | _ => false

/-- The microphone samples that reach the Mix Engine and the Voice Detector in a period (R14): those of ONLINE seats, and none
while no audio is carried. -/
def State.carriedMics (s : State) (mics : List (Seat × Sample)) : List (Seat × Sample) :=
  if s.carriesAudio then mics.filter fun p => (s.tbc.seats.get p.1).presence = .online else []

/-- The feeds the TBC sends in a period (R14): each ONLINE seat's feed as the Mix Engine formed it, while audio is carried. -/
def Tbc.withFeeds (carried : Bool) (feed : Seat → Option Int) (t : Tbc) : Tbc :=
  { t with seats := Tab.gen fun x =>
      { t.seats.get x with feed := if carried && (t.seats.get x).presence = .online then feed x else none } }

/-! ## Presence -/

/-- The reports and the notice of a change of presence (R5, R6, R7). -/
def State.tellPresence (s : State) (x : Seat) (was now : Presence) (k : UnitKind) : State :=
  (s.emit [.presenceReportAtFlc x was now, .presenceReportAtMix x now, .presenceReportAtVdt x now,
    .presenceReportAtScr x now]).notify .seat (seatPayload x now k)

/-- The reported level of each key the kind carries becomes the accepted level, with no edge (R5, R7). -/
def takenLevels (k : UnitKind) (old raw : PerKey KeyLevel) : PerKey KeyLevel :=
  allKeys.foldl (fun t key => if carries k key then t.upd key (raw.get key) else t) old

/-- A seat comes ONLINE (R5, R7). -/
def State.seatOnline (s : State) (x : Seat) (a : Answer) : State :=
  let t := s.tbc.seats.get x
  let t' : TbcSeat := { t with
    presence := .online, kind := a.kind, missed := 0, accepted := takenLevels a.kind t.accepted a.levels
    candidate := PerKey.all none, ringMark := .pending, plateMark := .pending }
  (s.putTbcSeat x t').tellPresence x t.presence .online a.kind

/-- A mark after an answer that does not acknowledge its item, or a missed one (R13). -/
def markUnacked : Mark → Mark
  | .sent => .pending
  | m => m

/-- A mark after an answer that acknowledges its item (R13). -/
def markAcked : Mark → Mark
  | .sent => .clear
  | m => m

/-- A mark of an ONLINE seat after a report of a change of content (R13). -/
def markChanged (p : Presence) (m : Mark) : Mark := if p = .online then .pending else m

/-- A missed answer (R4, R6): three in a row take an ONLINE seat OFFLINE. -/
def State.missed (s : State) (x : Seat) : State :=
  let t := s.tbc.seats.get x
  if t.presence = .online then
    if 3 ≤ t.missed + 1 then
      let t' : TbcSeat := { t with
        presence := .offline, missed := 3, candidate := PerKey.all none, ringMark := .clear, plateMark := .clear }
      (s.putTbcSeat x t').tellPresence x .online .offline t.kind
    else
      s.putTbcSeat x { t with
        missed := t.missed + 1, ringMark := markUnacked t.ringMark, plateMark := markUnacked t.plateMark }
  else s

/-- MISSED_ANSWER (R4). While polling is stopped no answer is missed (R173). -/
def execMissedAnswer (x : Seat) (s : State) : Out := .next (if s.polls then s.missed x else s)

/-! ## Keys -/

/-- One test of a key (R9): the accepted level, the candidate, and the edge that was accepted. -/
def keyTest (d : Nat) (accepted : KeyLevel) (candidate : Option (KeyLevel × Nat)) (raw : KeyLevel) :
    KeyLevel × Option (KeyLevel × Nat) × Option KeyEdge :=
  if raw = accepted then (accepted, none, none)
  else
    let count := match candidate with
      | some (l, n) => if l = raw then n + 1 else 1
      | none => 1
    if d ≤ count then (raw, none, some (if raw = .down then .press else .release)) else (accepted, some (raw, count), none)

/-- The edge choice of a key (R10). -/
def qualifying (k : Key) (mode : KeyMode) (e : KeyEdge) : Bool :=
  match k with
  | .mic => e = .press || mode = .pushToTalk
  | .priority => true
  | .next => e = .press
  | .share => e = .press

/-- A qualifying edge sets the key's flag; a MIC flag that goes from clear to set is reported (R11). -/
def State.setKeyFlag (s : State) (x : Seat) (k : Key) : State :=
  let t := s.tbc.seats.get x
  let s' := s.putTbcSeat x { t with flag := t.flag.upd k true }
  if k = .mic ∧ t.flag.mic = false then s'.emit [.micFlagReport x] else s'

/-- The key event of a qualifying edge (R10); it carries the key mode it was formed under (log 9). -/
def keyEventRow (x : Seat) (k : Key) (e : KeyEdge) (mode : KeyMode) : Instr :=
  match k with
  | .share => .shareKeyEvent x
  | k => .keyEvent x k e mode

/-- What an accepted edge does (R10, R11, R12, R167). -/
def State.acceptEdge (s : State) (x : Seat) (k : Key) (e : KeyEdge) : State :=
  let mode := s.settings.keyMode.get x
  let q := qualifying k mode e
  let s1 := if q then s.setKeyFlag x k else s
  let s2 := if q ∧ s.tbc.power = some .full ∧ (s.tbc.seats.get x).heldEnabled then (s1.emit [keyEventRow x k e mode]).restartIdle
    else s1
  if e = .press ∧ s.tbc.power = some .quiet then s2.emit [.wakeRequest .key] else s2

/-- The conditioning of one key of an ONLINE seat (R9). -/
def State.conditionKey (s : State) (x : Seat) (raw : PerKey KeyLevel) (k : Key) : State :=
  let t := s.tbc.seats.get x
  if carries t.kind k then
    let r := keyTest s.settings.debounce (t.accepted.get k) (t.candidate.get k) (raw.get k)
    let s' := s.putTbcSeat x { t with accepted := t.accepted.upd k r.1, candidate := t.candidate.upd k r.2.1 }
    match r.2.2 with
    | some e => s'.acceptEdge x k e
    | none => s'
  else s

/-- The share signal of an accepted answer (R2): held, and reported for a DELEGATE-SHARE seat that is ONLINE. -/
def State.takeShareSignal (s : State) (x : Seat) (present : Bool) : State :=
  let t := s.tbc.seats.get x
  if t.kind = .delegateShare ∧ t.presence = .online then
    (s.putTbcSeat x { t with shareSignal := present }).emit [.shareSignalReport x present]
  else s.putTbcSeat x { t with shareSignal := false }

/-- The acknowledgement of an accepted answer (R13). -/
def State.takeAck (s : State) (x : Seat) (a : Ack) : State :=
  let t := s.tbc.seats.get x
  s.putTbcSeat x { t with
    ringMark := if a = .ring then markAcked t.ringMark else markUnacked t.ringMark
    plateMark := if a = .plate then markAcked t.plateMark else markUnacked t.plateMark }

/-- An accepted answer (R4): missed count 0, then presence, keys, share signal and acknowledgement, in that order. The keys are taken in
the order MIC, PRIORITY, NEXT, SHARE (log 52). -/
def State.accepted (s : State) (x : Seat) (a : Answer) : State :=
  let t := s.tbc.seats.get x
  let s0 := s.putTbcSeat x { t with missed := 0 }
  let s1 := if t.presence = .online then allKeys.foldl (fun s' k => s'.conditionKey x a.levels k) s0 else s0.seatOnline x a
  (s1.takeShareSignal x a.shareSignal).takeAck x a.ack

/-- Whether an answer that arrived counts as missed (R4): a kind that is none of the three, or not the ONLINE seat's own. -/
def wrongKind (t : TbcSeat) (a : Answer) : Bool := a.kind = .noUnit || (t.presence = .online && a.kind ≠ t.kind)

/-- ACCEPTED_ANSWER (R4). An answer that R4 calls missed is taken as missed; on a bus that is not polled there is no answer. -/
def execAcceptedAnswer (x : Seat) (a : Answer) (s : State) : Out :=
  .next (if s.polls then (if wrongKind (s.tbc.seats.get x) a then s.missed x else s.accepted x a) else s)

/-! ## Reports to the TBC -/

/-- RING_CHANGE (R13). -/
def execRingChange (x : Seat) (s : State) : Out :=
  let s := s.taking (.ringChange x)
  let t := s.tbc.seats.get x
  .next (s.putTbcSeat x { t with ringMark := markChanged t.presence t.ringMark })

/-- NAMEPLATE_CHANGE (R13). -/
def execNameplateChange (x : Seat) (s : State) : Out :=
  let s := s.taking (.nameplateChange x)
  let t := s.tbc.seats.get x
  .next (s.putTbcSeat x { t with plateMark := markChanged t.presence t.plateMark })

/-- ENABLED_REPORT_AT_TBC (R10). -/
def execEnabledReportAtTbc (x : Seat) (b : Bool) (s : State) : Out :=
  let s := s.taking (.enabledReportAtTbc x b)
  .next (s.putTbcSeat x { s.tbc.seats.get x with heldEnabled := b })

/-- Key flags cleared at some seats (R11, R18). -/
def Tbc.clearFlags (t : Tbc) (p : Seat → Bool) (keys : List Key) : Tbc :=
  let cleared (r : TbcSeat) : TbcSeat := { r with flag := keys.foldl (fun f k => f.upd k false) r.flag }
  { t with seats := Tab.gen fun x => if p x then cleared (t.seats.get x) else t.seats.get x }

def State.clearKeyFlags (s : State) (p : Seat → Bool) (keys : List Key) : State := { s with tbc := s.tbc.clearFlags p keys }

/-- KEY_FLAG_CLEARING (R147, R150): every flag at an activation, every MIC flag at an ending. -/
def execKeyFlagClearing (micOnly : Bool) (s : State) : Out :=
  .next ((s.taking (.keyFlagClearing micOnly)).clearKeyFlags (fun _ => true) (if micOnly then [.mic] else allKeys))

/-- The record of a seat on entry to SLEEP (R8): as after a reset, but for the flags and the held enabled field. -/
def TbcSeat.unpowered (t : TbcSeat) : TbcSeat := { flag := t.flag, heldEnabled := t.heldEnabled }

/-- A report of the power state at the TBC (R1, R8, R14, R171): QUIET stops the audio; SLEEP unpowers the bus; a phase of WAKING restarts both
branches at address 0. -/
def Tbc.takePower (t : Tbc) (p : Power) (phase : Option Phase) : Tbc :=
  let t' := { t with power := some p, phase := phase }
  match p with
  | .quiet => t'.withFeeds false fun _ => none
  | .sleep => { t' with seats := Tab.gen fun x => (t.seats.get x).unpowered }
  | .waking => { t' with nextLeft := 0, nextRight := 0, passLeft := false, passRight := false }
  | _ => t'

/-! ## Commands -/

/-- SET-KEY-MODE (R15). -/
def execSetKeyMode (r : CmdRef) (sel : SeatSel) (mode : Option KeyMode) (s : State) : Out :=
  let s := s.taking (.setKeyMode r sel mode)
  .next (match sel, mode with
    | .all, some m => { s with settings := { s.settings with keyMode := Tab.all 64 m } }.reply r .ok
    | .one (some x), some m =>
      { s with settings := { s.settings with keyMode := s.settings.keyMode.upd x m } }.reply r .ok
    | _, _ => s.reply r .badArgument)

/-- SET-DEBOUNCE (R16). -/
def execSetDebounce (r : CmdRef) (v : NumArg) (s : State) : Out :=
  .next ((s.taking (.setDebounce r v)).setNumber r 1 4 v i16
    fun n s => { s with settings := { s.settings with debounce := n.toNat } })

/-- The share signal of the seat record, whose list reads present, absent (01 section 1.1, R189). -/
def shareSignalField (present : Bool) : List Byte := u8 (if present then 0 else 1)

/-- One entry of READ-SEAT (R17). The accepted levels and the four flags have no count byte: the kind says which keys there are
(log 34). -/
def seatEntry (mode : KeyMode) (x : Seat) (t : TbcSeat) : List Byte :=
  u8 x.val ++ u8 t.presence.ctorIdx ++ u8 t.kind.ctorIdx ++ u8 mode.ctorIdx
    ++ (allKeys.filter (carries t.kind)).flatMap (fun k => u8 (t.accepted.get k).ctorIdx)
    ++ allKeys.flatMap (fun k => flagByte (t.flag.get k))
    ++ shareSignalField t.shareSignal ++ u8 t.ringMark.ctorIdx ++ u8 t.plateMark.ctorIdx

/-- READ-SEAT (R17). The run of entries has no count byte: the command's own count says how many there are (log 34). -/
def execReadSeat (r : CmdRef) (first count : Nat) (s : State) : Out :=
  let s := s.taking (.readSeat r first count)
  .next (if runIsBad first count 1 64 then s.reply r .badArgument
    else s.reply r .ok ((runOf 64 first count).flatMap fun x => seatEntry (s.settings.keyMode.get x) x (s.tbc.seats.get x)))

/-- An empty key set means all four (R18). -/
def namedKeys (keys : List Key) : List Key := if keys = [] then allKeys else keys

/-- CLEAR-KEY-FLAGS (R18). -/
def execClearKeyFlags (r : CmdRef) (sel : SeatSel) (keys : Option (List Key)) (s : State) : Out :=
  let s := s.taking (.clearKeyFlags r sel keys)
  .next (match sel, keys with
    | .all, some ks => (s.clearKeyFlags (fun _ => true) (namedKeys ks)).reply r .ok
    | .one (some x), some ks => (s.clearKeyFlags (fun y => y = x) (namedKeys ks)).reply r .ok
    | _, _ => s.reply r .badArgument)

end Sys2Proof.Machine
end

