-- ==== Sys2Proof/Machine/Vdt.lean ====
section
/-! DEFINITION. The Voice Detector (chapter 4). -/

namespace Sys2Proof.Machine

open Sys2Proof

/-- Eligibility (R82). -/
def VdtSeat.eligible (power : Option Power) (t : VdtSeat) : Bool := t.online && t.floorEligible && power = some .full

/-- One detector step of an eligible seat at the end of a block (R85, R86): the record and whether an onset (`some true`) or an
end (`some false`) is reported. -/
def detectorStep (onset hold : Nat) (above : Bool) (t : VdtSeat) : VdtSeat × Option Bool :=
  match t.state with
  | .quiet =>
    if above then
      (if onset ≤ 1 then ({ t with state := .voice, count := 0 }, some true) else ({ t with state := .onset, count := 1 }, none))
    else (t, none)
  | .onset =>
    if above then
      (if onset ≤ t.count + 1 then ({ t with state := .voice, count := 0 }, some true)
        else ({ t with count := t.count + 1 }, none))
    else ({ t with state := .quiet, count := 0 }, none)
  | .voice => if above then (t, none) else ({ t with state := .hold, hold := hold }, none)
  | .hold =>
    if above then ({ t with state := .voice, hold := 0 }, none)
    else if t.hold ≤ 1 then ({ t with state := .quiet, hold := 0 }, some false)
    else ({ t with hold := t.hold - 1 }, none)

/-- The end of a block at one seat (R83 to R86): a seat takes part when it is eligible and has been since the block began. -/
def VdtSeat.blockEnd (st : Settings) (power : Option Power) (t : VdtSeat) : VdtSeat × Option Bool :=
  if t.eligible power && t.whole then
    let e := decayed t.env t.peak
    let r := detectorStep st.onset st.hold (thresholdValue st.threshold ≤ e) { t with env := e }
    ({ r.1 with peak := 0, whole := true }, r.2)
  else ({ t with peak := 0, whole := t.eligible power }, none)

/-- The report of a detector step (R88). -/
def voiceReport (x : Seat) : Option Bool → List Instr
  | some true => [.voiceOnset x]
  | some false => [.voiceEnd x]
  | none => []

/-- A block at the detector (R83). -/
def State.detectorBlock (s : State) : State :=
  { s with
    vdt := { s.vdt with
      samples := 0
      seats := Tab.gen fun x => ((s.vdt.seats.get x).blockEnd s.settings s.vdt.power).1 } }.emit
    (allSeats.flatMap fun x => voiceReport x ((s.vdt.seats.get x).blockEnd s.settings s.vdt.power).2)

/-- The millisecond timers of the audio crystal: the loss holds and the floor graces of the Screen Router (R102, R173, log 5). -/
def Scr.millisecond (v : Scr) : Scr :=
  { v with
    points := Tab.gen fun p => { v.points.get p with loss := ticked (v.points.get p).loss }
    shares := v.shares.map fun e => match e.state with
      | .grace k n => { e with state := .grace k (n - 1) }
      | _ => e }

/-- The sample periods of one block (R83): one millisecond of audio. -/
def blockLength : Nat := 48

/-- The end of the running block, once its 48 sample periods have been taken (R83); before that no block has ended. -/
def State.endBlock (s : State) : State :=
  if blockLength ≤ s.vdt.samples then { s with scr := s.scr.millisecond }.detectorBlock else s

/-- BLOCK (R83). With the audio crystal stopped there is none (R173). -/
def execBlock (s : State) : Out := .next (if s.pcu.audio = .running then s.endBlock else s)

/-- The microphone sample of a seat in this period; 0 when none arrived in good order (R14). -/
def micOf (mics : List (Seat × Sample)) (x : Seat) : Int := ((mics.find? fun p => p.1 = x).map fun p => p.2.toInt).getD 0

/-- The detector's share of a sample period (R83): the block peak of each seat it holds as ONLINE, from the raw sample. -/
def Vdt.sampled (v : Vdt) (mics : List (Seat × Sample)) : Vdt :=
  { v with
    samples := v.samples + 1
    seats := Tab.gen fun x =>
      let t := v.seats.get x
      { t with peak := max t.peak (if t.online then (micOf mics x).natAbs else 0) } }

/-! ## Eligibility (R87) -/

/-- A seat's record when one of its held facts has changed: losing eligibility returns it to QUIET with its counters at 0,
gaining it starts the seat at its next whole block. -/
def VdtSeat.rejudged (was now : Bool) (samples : Nat) (t : VdtSeat) : VdtSeat :=
  if was && !now then { t with state := .quiet, env := 0, count := 0, hold := 0, whole := false }
  else if !was && now then { t with whole := samples = 0 }
  else t

/-- A change of a seat's held facts by a report; a seat in VOICE or HOLD that loses eligibility reports its end (R87, R88). -/
def State.judgeSeat (s : State) (x : Seat) (edit : VdtSeat → VdtSeat) : State :=
  let t : VdtSeat := s.vdt.seats.get x
  let was := t.eligible s.vdt.power
  let now := (edit t).eligible s.vdt.power
  { s with vdt := { s.vdt with seats := s.vdt.seats.upd x ((edit t).rejudged was now s.vdt.samples) } }.emit
    (if was && !now && (t.state = DetState.voice || t.state = DetState.hold) then [.voiceEnd x] else [])

/-- PRESENCE_REPORT_AT_VDT (R87). -/
def execPresenceReportAtVdt (x : Seat) (now : Presence) (s : State) : Out :=
  .next ((s.taking (.presenceReportAtVdt x now)).judgeSeat x fun t => { t with online := now = .online })

/-- ELIGIBILITY_REPORT (R87). -/
def execEligibilityReport (x : Seat) (b : Bool) (s : State) : Out :=
  .next ((s.taking (.eligibilityReport x b)).judgeSeat x fun t => { t with floorEligible := b })

/-- A report of the power state at the detector (R87): no voice end is reported. SLEEP leaves no seat ONLINE (R82). -/
def Vdt.takePower (v : Vdt) (p : Power) : Vdt :=
  { v with
    power := some p
    seats := Tab.gen fun x =>
      let t := v.seats.get x
      let t' := if p = .sleep then { t with online := false } else t
      t'.rejudged (t.eligible v.power) (t'.eligible (some p)) v.samples }

/-! ## Commands (section 4.7) -/

/-- A voice setting: the completion carries the value in force, CLAMPED when the number had to be changed (R90). -/
def State.setVoice (s : State) (r : CmdRef) (v : NumArg) (bring : Int → Int) (set : Int → Settings → Settings) : State :=
  match v with
  | none => s.reply r .badArgument
  | some n => { s with settings := set (bring n) s.settings }.reply r (if bring n = n then .ok else .clamped) (i16 (bring n))

/-- SET-VOICE-THRESHOLD (R91). -/
def execSetVoiceThreshold (r : CmdRef) (v : NumArg) (s : State) : Out :=
  .next ((s.taking (.setVoiceThreshold r v)).whenFull r fun s =>
    s.setVoice r v (clampInt (-120) (-12)) fun n st => { st with threshold := n })

/-- SET-VOICE-ONSET (R92). -/
def execSetVoiceOnset (r : CmdRef) (v : NumArg) (s : State) : Out :=
  .next ((s.taking (.setVoiceOnset r v)).whenFull r fun s =>
    s.setVoice r v (clampInt 1 15) fun n st => { st with onset := n.toNat })

/-- A hold in range, rounded to the nearest multiple of 50, halves up (R92). -/
def holdOf (n : Int) : Int := (clampInt 100 2000 n + 25) / 50 * 50

/-- SET-VOICE-HOLD (R92). -/
def execSetVoiceHold (r : CmdRef) (v : NumArg) (s : State) : Out :=
  .next ((s.taking (.setVoiceHold r v)).whenFull r fun s =>
    s.setVoice r v holdOf fun n st => { st with hold := n.toNat })

end Sys2Proof.Machine
end

