-- ==== Sys2Proof/Machine/Mix.lean ====
section
/-! DEFINITION. The Mix Engine (chapter 3), and one sample period with the share each block has in it. -/

namespace Sys2Proof.Machine

open Sys2Proof

/-! ## Gain plan -/

/-- The override duck term of a seat whose entry carries `priority` (R62). -/
def duckTerm (m : Mix) (duck : Int) (priority : Bool) : Int :=
  if m.overriding && m.policy = .duck && !priority then duck else 0

/-- The target of a seat (R60). -/
def Mix.targetOf (m : Mix) (st : Settings) (x : Seat) : Gain :=
  match m.speakers.find? (fun e => e.1 = x) with
  | none => .mute
  | some e =>
    if m.mute then .mute
    else
      let a := if st.nom then nomAttenuation m.speakers.length else 0
      .code (clampInt (-160) 24 (st.trim.get x + st.master - a + duckTerm m st.duck e.2))

/-- The gain plan recomputed for all 64 seats (R60). -/
def Mix.planned (st : Settings) (m : Mix) : Mix :=
  { m with seats := Tab.gen fun x => { m.seats.get x with target := m.targetOf st x } }

def State.replan (s : State) : State := { s with mix := s.mix.planned s.settings }

/-! ## The engine's two rates -/

/-- The engine runs (R73, R74, R173): WAKING past POWER-SETTLE, or FULL, with the audio crystal running. -/
def State.engineRuns (s : State) : Bool :=
  s.pcu.audio = .running && match s.mix.power with
    | some .full => true
    | some .waking => s.mix.phase ≠ some .powerSettle
    | _ => false

/-- The level code of a seat (R71). -/
def Mix.levelCode (m : Mix) (st : Settings) (x : Seat) : Int :=
  let c := st.speakerLevel + if m.speakers.any (fun e => e.1 = x) then st.selfDuck else 0
  if c < -160 then -160 else c

/-- A ramp tick of one seat (R63, R65, R71). -/
def MixSeat.ramped (level : Int) (t : MixSeat) : MixSeat :=
  { t with
    applied := rampStep t.applied t.target
    mult := multiplier (rampStep t.applied t.target)
    level := multiplier (.code level) }

/-- A ramp tick (R63, R69, R70, R71). -/
def Mix.ramped (st : Settings) (m : Mix) : Mix :=
  { m with
    seats := Tab.gen fun x => (m.seats.get x).ramped (m.levelCode st x)
    remoteMult := multiplier st.remoteGain
    radius := st.exclusion }

/-- RAMP_TICK (R63). No tick is taken while the engine does not run (R73). A tick is taken after any number of sample periods: the 48
between two ticks are the sender's (log 54). -/
def execRampTick (s : State) : Out :=
  .next (if s.engineRuns then { s with mix := s.mix.ramped s.settings } else s)

/-- The input of a seat (R58, R66): 0 unless the seat is held as ONLINE. -/
def Mix.input (m : Mix) (mics : List (Seat × Sample)) (x : Seat) : Int := if (m.seats.get x).online then micOf mics x else 0

/-- The exact product of a seat (R66). -/
def Mix.product (m : Mix) (mics : List (Seat × Sample)) (x : Seat) : Int := m.input mics x * ((m.seats.get x).mult : Int)

/-- The exact sum over all seats (R66). -/
def Mix.total (m : Mix) (mics : List (Seat × Sample)) : Int := (allSeats.map (m.product mics)).sum

/-- Membership of the exclusion set of `x` at radius `r` (R70): same branch, addresses no more than `r` apart. -/
def excluded (r : Nat) (x j : Seat) : Bool :=
  x.val / 32 = j.val / 32 && j.val ≤ x.val + r && x.val ≤ j.val + r

/-- The excluded sum of a seat (R70). -/
def Mix.excludedSum (m : Mix) (mics : List (Seat × Sample)) (x : Seat) : Int :=
  ((allSeats.filter (excluded m.radius x)).map (m.product mics)).sum

/-- The feed before saturation (R72). -/
def Mix.feedRaw (m : Mix) (mics : List (Seat × Sample)) (remote : Int) (x : Seat) : Int :=
  let u := rnd14 (m.total mics - m.excludedSum mics x + remote * (m.remoteMult : Int))
  rnd14 (u * ((m.seats.get x).level : Int))

/-- One seat's share of a sample period (R67, R72). -/
def MixSeat.fed (t : MixSeat) (raw : Int) : MixSeat :=
  if t.online then { t with feed := some (sat24 raw), feedClip := t.feedClip || sat24 raw ≠ raw } else { t with feed := none }

/-- A sample period of the running engine (R66 to R72). -/
def Mix.sampled (m : Mix) (mics : List (Seat × Sample)) (remote : Int) : Mix :=
  let raw := rnd14 (m.total mics)
  { m with
    seats := Tab.gen fun x => (m.seats.get x).fed (m.feedRaw mics remote x)
    programSend := sat24 raw
    programClip := m.programClip || sat24 raw ≠ raw
    programPeak := max m.programPeak (sat24 raw).natAbs
    remotePeak := max m.remotePeak remote.natAbs }

/-- The outputs of an engine that does not run (R73): the program send carries 0 and no feed is formed. -/
def Mix.silent (m : Mix) : Mix :=
  { m with programSend := 0, seats := Tab.gen fun x => { m.seats.get x with feed := none } }

/-- The engine's share of a sample period: its sums while it runs, silence otherwise (R66, R73). -/
def State.mixPeriod (s : State) (mics : List (Seat × Sample)) (remote : Option Sample) : Mix :=
  if s.engineRuns then s.mix.sampled (s.carriedMics mics) ((remote.map BitVec.toInt).getD 0) else s.mix.silent

/-- One sample period (R14, R66, R83): the samples the table bus carries reach the engine and the detector, and the feeds the
engine forms go out on the table bus. -/
def State.samplePeriod (s : State) (mics : List (Seat × Sample)) (remote : Option Sample) : State :=
  { s with
    mix := s.mixPeriod mics remote
    vdt := s.vdt.sampled (s.carriedMics mics)
    tbc := s.tbc.withFeeds s.carriesAudio fun x => ((s.mixPeriod mics remote).seats.get x).feed }

/-- The outputs while the audio crystal stands still (R173): the program send stays 0 and no feed is sent. -/
def State.audioStill (s : State) : State :=
  { s with mix := s.mix.silent, tbc := s.tbc.withFeeds false fun _ => none }

/-- SAMPLE_PERIOD (R14, R66, R83, R173). A block that has its 48 periods ends before the next period begins (log 36). -/
def execSamplePeriod (mics : List (Seat × Sample)) (remote : Option Sample) (s : State) : Out :=
  .next (if s.pcu.audio = .running then s.endBlock.samplePeriod mics remote else s.audioStill)

/-! ## Reports to the engine -/

/-- FLOOR_CHANGE_AT_MIX (R57). -/
def execFloorChangeAtMix (v : MixFloor) (s : State) : Out :=
  let s := s.taking (.floorChangeAtMix v)
  .next { s with mix := { s.mix with speakers := v.speakers, overriding := v.overriding, policy := v.policy } }.replan

/-- A presence report at the engine (R58): in SLEEP every seat is not ONLINE, and presence is taken afresh after the wake. -/
def Mix.takePresence (x : Seat) (now : Presence) (m : Mix) : Mix :=
  { m with seats := m.seats.upd x { m.seats.get x with online := now = .online && m.power ≠ some .sleep } }

/-- PRESENCE_REPORT_AT_MIX (R58). -/
def execPresenceReportAtMix (x : Seat) (now : Presence) (s : State) : Out :=
  let s := s.taking (.presenceReportAtMix x now)
  .next { s with mix := s.mix.takePresence x now }

/-- MUTE_SWITCH_AT_MIX (R59). -/
def execMuteSwitchAtMix (b : Bool) (s : State) : Out :=
  let s := s.taking (.muteSwitchAtMix b)
  .next { s with mix := { s.mix with mute := b } }.replan

/-- A report of the power state at the engine (R73, R58): QUIET cuts to MUTE, SLEEP leaves no seat ONLINE. -/
def Mix.takePower (m : Mix) (p : Power) (phase : Option Phase) : Mix :=
  let m' := { m with power := some p, phase := phase }
  match p with
  | .quiet =>
    { m' with
      remoteMult := 0, programSend := 0
      seats := Tab.gen fun x => { m'.seats.get x with applied := .mute, mult := 0, feed := none } }
  | .sleep =>
    { m' with
      programSend := 0
      seats := Tab.gen fun x => { m'.seats.get x with online := false, feed := none } }
  | _ => m'

/-! ## Commands (section 3.10) -/

/-- SET-MASTER (R78). -/
def execSetMaster (r : CmdRef) (v : NumArg) (s : State) : Out :=
  .next ((s.taking (.setMaster r v)).whenFull r fun s => s.setNumber r (-160) 0 v i16
    fun n s => { s with settings := { s.settings with master := n } }.replan)

/-- SET-TRIM (R78). -/
def execSetTrim (r : CmdRef) (sel : SeatSel) (v : NumArg) (s : State) : Out :=
  .next ((s.taking (.setTrim r sel v)).whenFull r fun s => match sel with
    | .all => s.setNumber r (-24) 24 v i16
        fun n s => { s with settings := { s.settings with trim := Tab.all 64 n } }.replan
    | .one (some x) => s.setNumber r (-24) 24 v i16
        fun n s => { s with settings := { s.settings with trim := s.settings.trim.upd x n } }.replan
    | .one none => s.reply r .badArgument)

/-- SET-SPEAKER-LEVEL (R79). -/
def execSetSpeakerLevel (r : CmdRef) (v : NumArg) (s : State) : Out :=
  .next ((s.taking (.setSpeakerLevel r v)).whenFull r fun s => s.setNumber r (-160) 0 v i16
    fun n s => { s with settings := { s.settings with speakerLevel := n } })

/-- SET-SELF-DUCK (R79). -/
def execSetSelfDuck (r : CmdRef) (v : NumArg) (s : State) : Out :=
  .next ((s.taking (.setSelfDuck r v)).whenFull r fun s => s.setNumber r (-24) 0 v i16
    fun n s => { s with settings := { s.settings with selfDuck := n } })

/-- SET-DUCK (R79). -/
def execSetDuck (r : CmdRef) (v : NumArg) (s : State) : Out :=
  .next ((s.taking (.setDuck r v)).whenFull r fun s => s.setNumber r (-60) 0 v i16
    fun n s => { s with settings := { s.settings with duck := n } }.replan)

/-- SET-NOM (R80). -/
def execSetNom (r : CmdRef) (on : Option Bool) (s : State) : Out :=
  .next ((s.taking (.setNom r on)).whenFull r fun s => match on with
    | some b => { s with settings := { s.settings with nom := b } }.replan.reply r .ok
    | none => s.reply r .badArgument)

/-- SET-EXCLUSION (R80). -/
def execSetExclusion (r : CmdRef) (v : NumArg) (s : State) : Out :=
  .next ((s.taking (.setExclusion r v)).whenFull r fun s => s.setNumber r 0 3 v i16
    fun n s => { s with settings := { s.settings with exclusion := n.toNat } })

/-- SET-REMOTE-GAIN (R81). -/
def execSetRemoteGain (r : CmdRef) (g : Option Gain) (s : State) : Out :=
  .next ((s.taking (.setRemoteGain r g)).whenFull r fun s => match g with
    | none => s.reply r .badArgument
    | some .mute => { s with settings := { s.settings with remoteGain := .mute } }.reply r .ok
    | some (.code c) => s.setNumber r (-160) 24 (some c) i16
        fun n s => { s with settings := { s.settings with remoteGain := .code n } })

/-- One seat of READ-METERS (R76, R89). -/
def meterEntry (st : Settings) (m : Mix) (v : Vdt) (x : Seat) : List Byte :=
  let t := m.seats.get x
  u8 x.val ++ i16 (st.trim.get x) ++ gainField t.target ++ gainField t.applied ++ i16 (m.levelCode st x)
    ++ i16 (envelopeCode (v.seats.get x).env) ++ u8 (v.seats.get x).state.ctorIdx

/-- READ-METERS's payload (R76). -/
def State.meters (s : State) (first count : Nat) : List Byte :=
  flagByte s.mix.programClip ++ seatSet (fun x => (s.mix.seats.get x).feedClip)
    ++ u32 s.mix.programPeak ++ u32 s.mix.remotePeak
    ++ (runOf 64 first count).flatMap (meterEntry s.settings s.mix s.vdt)

/-- The peaks and clip flags cleared (R76). -/
def Mix.metersCleared (m : Mix) : Mix :=
  { m with
    programClip := false, programPeak := 0, remotePeak := 0
    seats := Tab.gen fun x => { m.seats.get x with feedClip := false } }

/-- READ-METERS (R76). -/
def execReadMeters (r : CmdRef) (first count : Nat) (s : State) : Out :=
  let s := s.taking (.readMeters r first count)
  .next (if runIsBad first count 1 64 then s.reply r .badArgument
    else { s with mix := s.mix.metersCleared }.reply r .ok (s.meters first count))

end Sys2Proof.Machine
end

