-- ==== Sys2Proof/Machine/Bks.lean ====
section
/-! DEFINITION. The Booking Store (chapter 6): records and their checks, the write queue, and the store's commands. -/

namespace Sys2Proof.Machine

open Sys2Proof

/-! ## The write queue (section 6.6) -/

/-- Persist state of a slot (R128). -/
def Bks.persist (b : Bks) (k : StoreSlot) : Persist :=
  match b.writing with
  | some w => if w.slot = k then .writing w.requeue else if k ∈ b.queue then .dirty else .clean
  | none => if k ∈ b.queue then .dirty else .clean

/-- The number of a persist state in its list. -/
def Persist.code : Persist → Nat
  | .clean => 0
  | .dirty => 1
  | .writing _ => 2

/-- A change to a slot (R128). -/
def Bks.noteChange (k : StoreSlot) (b : Bks) : Bks :=
  match b.persist k with
  | .clean => { b with queue := b.queue ++ [k] }
  | .dirty => b
  | .writing _ => { b with writing := b.writing.map fun w => { w with requeue := true } }

/-- The write image of a slot: the working copy, or the save image (R129). -/
def Bks.image (b : Bks) : StoreSlot → Record
  | .booking i => .booking (b.bookings.get i)
  | .participant p => .participant (b.participants.get p)
  | .settings => .settings b.saveImage

/-- A write starts when the three conditions hold together (R129). -/
def Bks.startWrite (b : Bks) : Bks :=
  match b.writing, b.supplyHeld, b.queue with
  | none, false, k :: rest => { b with queue := rest, writing := some ⟨k, b.image k, false⟩ }
  | _, _, _ => b

/-- A change to a slot, with the write it may start (R128, R129). -/
def Bks.change (k : StoreSlot) (b : Bks) : Bks := (b.noteChange k).startWrite

/-- A booking slot's working copy altered; the same content is no change (R128). -/
def Bks.setBooking (i : BSlot) (v : Option Booking) (b : Bks) : Bks :=
  if b.bookings.get i = v then b else { b with bookings := b.bookings.upd i v }.change (.booking i)

/-- A participant slot's working copy altered. -/
def Bks.setParticipant (p : PIdx) (v : Option Participant) (b : Bks) : Bks :=
  if b.participants.get p = v then b else { b with participants := b.participants.upd p v }.change (.participant p)

/-- A booking of the state altered. -/
def State.setBooking (s : State) (i : BSlot) (v : Option Booking) : State := { s with bks := s.bks.setBooking i v }

/-- The write a command that is about to change a slot will wait on (R132). -/
def Bks.waitOn (b : Bks) (k : StoreSlot) : WriteWait :=
  ⟨k, match b.persist k with
    | .writing _ => 1
    | _ => 0⟩

/-- A command waits on its writes; one that changed nothing completes at once (R132). -/
def State.await (s : State) (r : CmdRef) (waits : List WriteWait) (payload : List Byte := []) : State :=
  if waits = [] then s.reply r .ok payload else { s with bks := { s.bks with waiters := s.bks.waiters ++ [⟨r, .ok, payload, waits⟩] } }

/-- The wait of a command on a slot, when its record did change. -/
def Bks.waitsIf (b : Bks) (changed : Bool) (k : StoreSlot) : List WriteWait := if changed then [b.waitOn k] else []

/-- The content a write made durable (R129). -/
def Durable.store (d : Durable) (k : StoreSlot) (v : Record) : Durable :=
  match k, v with
  | .booking i, .booking b => { d with bookings := d.bookings.upd i (.good b) }
  | .participant p, .participant t => { d with participants := d.participants.upd p (.good t) }
  | .settings, .settings st => { d with settings := .good st }
  | _, _ => d

/-- A waiter at the end of a write of slot `k` (R132). -/
def Waiter.written (k : StoreSlot) (w : Waiter) : Waiter :=
  { w with waits := w.waits.filterMap fun t =>
      if t.slot = k then (if t.skips = 0 then none else some { t with skips := t.skips - 1 }) else some t }

/-- The end of the write in flight (R129): its image is durable, a marked slot joins the tail, and the waiters move on. -/
def Bks.endWrite (b : Bks) (w : WriteInFlight) : Bks :=
  { b with
    durable := b.durable.store w.slot w.image
    writing := none
    queue := if w.requeue then b.queue ++ [w.slot] else b.queue
    waiters := (b.waiters.map (Waiter.written w.slot)).filter fun t => t.waits ≠ [] }

/-- The commands that complete at the end of a write of slot `k`, in the order of their execution. -/
def Bks.completed (b : Bks) (k : StoreSlot) : List Instr :=
  ((b.waiters.map (Waiter.written k)).filter fun t => t.waits = []).map fun t => .blockResult t.ref t.result t.payload

/-- STORE_WRITE_END (R129). With no write in flight there is none. -/
def execStoreWriteEnd (s : State) : Out :=
  .next (match s.bks.writing with
    | none => s
    | some w => { s with bks := (s.bks.endWrite w).startWrite }.emit (s.bks.completed w.slot))

/-- SUPPLY_WARNING_REPORT (R130): each start and end of a hold sends a STORE notice. -/
def execSupplyWarningReport (asserted : Bool) (s : State) : Out :=
  let s := s.taking (.supplyWarningReport asserted)
  .next (if s.bks.supplyHeld = asserted then s
    else
      let b := { s.bks with supplyHeld := asserted }.startWrite
      { s with bks := b }.notify .store (storePayload b))

/-! ## Valid records -/

/-- A character of the display set (R117). -/
def isCharacter (c : Byte) : Bool := 32 ≤ c.toNat && c.toNat ≤ 126

/-- A text of `lo..hi` characters (R117, R118). -/
def isText (lo hi : Nat) (t : Text) : Bool := lo ≤ t.length && t.length ≤ hi && t.all isCharacter

/-- A participant record is valid (R118). -/
def validParticipant (p : Participant) : Bool :=
  isText 1 24 p.name && p.name.any (fun c => c.toNat ≠ 32) && isText 0 24 p.note

/-- A number as an index below `n`. -/
def indexOf (n k : Nat) : Option (Fin n) := if h : k < n then some ⟨k, h⟩ else none

/-- An optional number as an optional index: `none` when a number is there and is no index. -/
def optIndexOf (n : Nat) (k : Option Nat) : Option (Option (Fin n)) :=
  match k with
  | none => some none
  | some v => (indexOf n v).map some

/-- An attendee pair as given. -/
def pairOf (a : Nat × Nat) : Option (Seat × PIdx) :=
  match indexOf 64 a.1, indexOf 96 a.2 with
  | some x, some p => some (x, p)
  | _, _ => none

/-- A valid time (R117). -/
def validTime (t : DayMinute) : Bool := t.day ≤ 32767 && t.minute ≤ 1439

/-- The participant slot holds a participant. -/
def Bks.holds (b : Bks) (p : PIdx) : Bool := (b.participants.get p).isSome

/-- A record is valid (R117), beyond what its fields' types already say. -/
def Bks.validBooking (b : Bks) (k : Booking) : Bool :=
  validTime k.start && validTime k.stop
    && k.start.minutes + 5 ≤ k.stop.minutes && k.stop.minutes ≤ k.start.minutes + 720
    && isText 0 40 k.title
    && (k.noShow = 0 || (5 ≤ k.noShow && k.noShow ≤ 30))
    && k.organiser.all b.holds
    && (k.plan.chair.isNone || k.plan.chair ≠ k.plan.vice)
    && k.limit.all (fun n => 1 ≤ n && n ≤ 8)
    && k.plan.attendees.length ≤ 64
    && (k.plan.attendees.map (·.1)).Nodup && (k.plan.attendees.map (·.2)).Nodup
    && k.plan.attendees.all (fun a => b.holds a.2)

/-- The record that a form's parameters make, in state SCHEDULED; `none` when a field lies outside its set (R117, R119). -/
def bookingOfForm (f : BookingForm) : Option Booking :=
  match optIndexOf 96 f.organiser, optIndexOf 64 f.chair, optIndexOf 64 f.vice, f.attendees.mapM pairOf, f.mode with
  | some o, some c, some v, some l, none =>
    some ⟨f.calRef, .scheduled, f.start, f.stop, f.title, o, ⟨l, c, v⟩, none, f.limit, f.noShow, false, none⟩
  | some o, some c, some v, some l, some (some m) =>
    some ⟨f.calRef, .scheduled, f.start, f.stop, f.title, o, ⟨l, c, v⟩, some m, f.limit, f.noShow, false, none⟩
  | _, _, _, _, _ => none

/-- The form a held booking stands for. -/
def formOfBooking (k : Booking) : BookingForm :=
  { calRef := k.calRef, start := k.start, stop := k.stop, title := k.title
    organiser := k.organiser.map (·.val), chair := k.plan.chair.map (·.val), vice := k.plan.vice.map (·.val)
    mode := k.mode.map some, limit := k.limit, noShow := k.noShow
    attendees := k.plan.attendees.map fun a => (a.1.val, a.2.val) }

/-- A form with the fields an edit gives (R122). -/
def editedForm (e : BookingEdit) (f : BookingForm) : BookingForm :=
  { calRef := e.calRef.getD f.calRef, start := e.start.getD f.start, stop := e.stop.getD f.stop, title := e.title.getD f.title
    organiser := e.organiser.getD f.organiser, chair := e.chair.getD f.chair, vice := e.vice.getD f.vice
    mode := e.mode.getD f.mode, limit := e.limit.getD f.limit, noShow := e.noShow.getD f.noShow
    attendees := e.attendees.getD f.attendees }

/-- The valid record a form makes over the participants held (R117). -/
def Bks.recordOf (b : Bks) (f : BookingForm) : Option Booking :=
  match bookingOfForm f with
  | some k => if b.validBooking k then some k else none
  | none => none

/-- The booked intervals overlap (R119). -/
def overlap (a b : Booking) : Bool := a.start.minutes < b.stop.minutes && b.start.minutes < a.stop.minutes

/-- The live booking of a slot. -/
def Bks.live (b : Bks) (i : BSlot) : Option Booking :=
  match b.bookings.get i with
  | some k => if isLive k.state then some k else none
  | none => none

/-- The slots in ascending order. -/
def allBSlots : List BSlot := List.finRange 32

/-- A record's interval overlaps that of a live booking in another slot than `but`. -/
def Bks.clashes (b : Bks) (but : Option BSlot) (k : Booking) : Bool :=
  allBSlots.any fun i => some i ≠ but && (b.live i).any (overlap k)

/-- The room clock's day and minute as one number (R119). -/
def Msc.minuteNow (m : Msc) : Nat := m.day * 1440 + m.second / 60

/-! ## Adding and removing bookings -/

/-- The reclaim key of a spent booking (R120). -/
def reclaimKey (k : Booking) : Nat :=
  match k.state, k.actualEnd with
  | .cancelled, _ => instantOf k.start
  | _, some e => instant e.1 e.2
  | _, none => instantOf k.start

/-- The spent booking of a slot. -/
def Bks.spent (b : Bks) (i : BSlot) : Option Booking :=
  match b.bookings.get i with
  | some k => if isLive k.state then none else some k
  | none => none

/-- The slot with the earliest reclaim key, the lower index between equal keys (R120). -/
def Bks.reclaimable (b : Bks) : Option BSlot :=
  (allBSlots.foldl (fun best i =>
    match b.spent i, best with
    | none, _ => best
    | some k, none => some (i, reclaimKey k)
    | some k, some (j, key) => if reclaimKey k < key then some (i, reclaimKey k) else some (j, key))
    (none : Option (BSlot × Nat))).map (·.1)

/-- The slot ADD-BOOKING takes: the lowest free one, else the reclaimed one (R120). -/
def Bks.slotForAdd (b : Bks) : Option BSlot :=
  match allBSlots.find? (fun i => (b.bookings.get i).isNone) with
  | some i => some i
  | none => b.reclaimable

/-- The calendar reference of the booking a slot held. -/
def Bks.heldRef (b : Bks) (i : BSlot) : Option (BitVec 32) := (b.bookings.get i).map (·.calRef)

/-- A booking placed in its slot (R119): notice, report, and the wait for its write. -/
def State.placeBooking (s : State) (r : CmdRef) (i : BSlot) (k : Booking) : State :=
  (((s.setBooking i (some k)).notify .booking (bookingPayload .added i k.calRef (s.bks.heldRef i))).emit
    [.bookingReport (.added i)]).await r [s.bks.waitOn (.booking i)] (u8 i.val)

/-- ADD-BOOKING (R119): the checks in the order of the table. -/
def execAddBooking (r : CmdRef) (form : BookingForm) (s : State) : Out :=
  let s := s.taking (.addBooking r form)
  .next (match s.bks.recordOf form with
    | none => s.reply r .badArgument
    | some k =>
      if s.msc.clock ≠ .set then s.reply r .clockUnset
      else if k.stop.minutes ≤ s.msc.minuteNow then s.reply r .badArgument
      else if s.bks.clashes none k then s.reply r .conflict
      else match s.bks.slotForAdd with
        | none => s.reply r .full
        | some i => s.placeBooking r i k)

/-- CANCEL-BOOKING (R121). -/
def execCancelBooking (r : CmdRef) (slot : Option BSlot) (s : State) : Out :=
  let s := s.taking (.cancelBooking r slot)
  .next (match slot with
    | none => s.reply r .badArgument
    | some i => match s.bks.bookings.get i with
      | none => s.reply r .notFound
      | some k =>
        if k.state = .scheduled ∨ k.state = .pending then
          (((s.setBooking i (some { k with state := .cancelled })).notify .booking
            (bookingPayload .cancelled i k.calRef none)).emit
            [.bookingReport (.cancelled i (k.state = .pending))]).await r [s.bks.waitOn (.booking i)]
        else s.reply r .state)

/-- DELETE-BOOKING (R121). -/
def execDeleteBooking (r : CmdRef) (slot : Option BSlot) (s : State) : Out :=
  let s := s.taking (.deleteBooking r slot)
  .next (match slot with
    | none => s.reply r .badArgument
    | some i => match s.bks.bookings.get i with
      | none => s.reply r .notFound
      | some k =>
        if isLive k.state then s.reply r .state
        else ((s.setBooking i none).notify .booking (bookingPayload .deleted i k.calRef none)).await r [s.bks.waitOn (.booking i)])

/-! ## Editing -/

/-- The edit gives a field that only SCHEDULED and PENDING let change (R122). -/
def givesEarly (e : BookingEdit) : Bool :=
  e.calRef.isSome || e.start.isSome || e.stop.isSome || e.mode.isSome || e.limit.isSome || e.noShow.isSome

/-- The fields may be edited in the booking's state (R122). -/
def editAllowed (e : BookingEdit) : BState → Bool
  | .scheduled | .pending => true
  | .awaiting | .active | .ending => !givesEarly e
  | .ended | .released | .cancelled => false

/-- A held booking with the fields of a record made from an edited form: its lifecycle fields are kept. -/
def keepingLife (old new : Booking) : Booking :=
  { new with state := old.state, checkedIn := old.checkedIn, actualEnd := old.actualEnd }

/-- A booking edited (R122, R123): notice, report to the scheduler, and the wait; an edit to the present values changes nothing. The
notice carries the calendar reference after the edit (log 38). -/
def State.applyEdit (s : State) (r : CmdRef) (i : BSlot) (old new : Booking) : State :=
  if new = old then s.reply r .ok
  else
    (((s.setBooking i (some new)).notify .booking (bookingPayload .edited i new.calRef none)).emit
      [.bookingReport (.edited i old.plan new.plan (new.title ≠ old.title || new.organiser ≠ old.organiser)
        (new.start ≠ old.start))]).await r [s.bks.waitOn (.booking i)]

/-- An edit of a held booking, its checks from the third on (R122). -/
def State.editChecked (s : State) (r : CmdRef) (i : BSlot) (old new : Booking) : State :=
  if new.start = old.start ∧ new.stop = old.stop then s.applyEdit r i old new
  else if s.msc.clock ≠ .set then s.reply r .clockUnset
  else if new.stop.minutes ≤ s.msc.minuteNow then s.reply r .badArgument
  else if s.bks.clashes (some i) new then s.reply r .conflict
  else s.applyEdit r i old new

/-- EDIT-BOOKING (R122): the checks in the order of the rule. -/
def execEditBooking (r : CmdRef) (slot : Option BSlot) (e : BookingEdit) (s : State) : Out :=
  let s := s.taking (.editBooking r slot e)
  .next (match slot with
    | none => s.reply r .badArgument
    | some i => match s.bks.bookings.get i with
      | none => s.reply r .notFound
      | some old =>
        if !editAllowed e old.state then s.reply r .state
        else match s.bks.recordOf (editedForm e (formOfBooking old)) with
          | none => s.reply r .badArgument
          | some new => s.editChecked r i old (keepingLife old new))

/-! ## Participants (section 6.4) -/

/-- ADD-PARTICIPANT (R124). -/
def execAddParticipant (r : CmdRef) (name note : Text) (s : State) : Out :=
  let s := s.taking (.addParticipant r name note)
  .next (if !(validParticipant ⟨name, note⟩) then s.reply r .badArgument
    else match (List.finRange 96).find? (fun p => !s.bks.holds p) with
      | none => s.reply r .full
      | some p =>
        ({ s with bks := s.bks.setParticipant p (some ⟨name, note⟩) }.notify .booking
          (participantPayload .participantAdded p)).await r [s.bks.waitOn (.participant p)] (u8 p.val))

/-- EDIT-PARTICIPANT (R124). An edit that leaves the record as it was changes nothing (R128), and one that
gives neither a name nor a note answers OK in the same way (log 48). -/
def execEditParticipant (r : CmdRef) (index : Option PIdx) (name note : Option Text) (s : State) : Out :=
  let s := s.taking (.editParticipant r index name note)
  .next (match index with
    | none => s.reply r .badArgument
    | some p => match s.bks.participants.get p with
      | none => s.reply r .notFound
      | some old =>
        let new : Participant := ⟨name.getD old.name, note.getD old.note⟩
        if !(validParticipant new) then s.reply r .badArgument
        else if new = old then s.reply r .ok
        else
          (({ s with bks := s.bks.setParticipant p (some new) }.notify .booking (participantPayload .participantEdited p)).emit
            [.participantEditReport p]).await r [s.bks.waitOn (.participant p)])

/-- A booking names a participant: as organiser or in the attendee list. -/
def namesParticipant (k : Booking) (p : PIdx) : Bool := k.organiser = some p || k.plan.attendees.any fun a => a.2 = p

/-- A booking without its references to participants for which `gone` holds (R125 step 2). -/
def withoutParticipants (gone : PIdx → Bool) (k : Booking) : Booking :=
  { k with
    organiser := k.organiser.filter fun p => !gone p
    plan := { k.plan with attendees := k.plan.attendees.filter fun a => !gone a.2 } }

/-- The slots of bookings that name a participant, among those `which` picks: in ascending order, in which they join the write queue
(log 39). -/
def Bks.naming (b : Bks) (which : Booking → Bool) (p : PIdx) : List BSlot :=
  allBSlots.filter fun i => (b.bookings.get i).any fun k => which k && namesParticipant k p

/-- Every booking of a list of slots without its references to `gone`. -/
def Bks.forget (gone : PIdx → Bool) (slots : List BSlot) (b : Bks) : Bks :=
  slots.foldl (fun t i => t.setBooking i ((t.bookings.get i).map (withoutParticipants gone))) b

/-- A participant deleted (R125): its slot emptied, then every spent booking that names it. -/
def Bks.deleteParticipant (p : PIdx) (b : Bks) : Bks :=
  (b.setParticipant p none).forget (fun q => q = p) (b.naming (fun k => !isLive k.state) p)

/-- The writes DELETE-PARTICIPANT waits on (R132). -/
def Bks.deleteWaits (p : PIdx) (b : Bks) : List WriteWait :=
  b.waitOn (.participant p) :: (b.naming (fun k => !isLive k.state) p).map fun i => b.waitOn (.booking i)

/-- DELETE-PARTICIPANT (R125). -/
def execDeleteParticipant (r : CmdRef) (index : Option PIdx) (s : State) : Out :=
  let s := s.taking (.deleteParticipant r index)
  .next (match index with
    | none => s.reply r .badArgument
    | some p =>
      if !s.bks.holds p then s.reply r .notFound
      else if s.bks.naming (fun k => isLive k.state) p ≠ [] then s.reply r .conflict
      else
        (({ s with bks := s.bks.deleteParticipant p }.notify .booking (participantPayload .participantDeleted p)).emit
          [.participantDeletionReport p]).await r (s.bks.deleteWaits p))

/-! ## Reading (section 6.5) -/

/-- An absent field of `n` bytes (log 18). -/
def absent (n : Nat) : List Byte := List.replicate n 0xFF

/-- Every field of a booking record, in the record's order (R116, R126). -/
def bookingField (k : Booking) : List Byte :=
  u32 k.calRef.toNat ++ u8 k.state.ctorIdx ++ dayMinuteField k.start ++ dayMinuteField k.stop ++ textField k.title
    ++ optIndex k.organiser ++ optSeat k.plan.chair ++ optSeat k.plan.vice
    ++ optU8 (k.mode.map (·.ctorIdx)) ++ optU16 k.limit ++ u16 k.noShow
    ++ listField (fun a : Seat × PIdx => u8 a.1.val ++ u8 a.2.val) k.plan.attendees
    ++ flagByte k.checkedIn
    ++ (match k.actualEnd with
      | some e => u16 e.1 ++ u32 e.2
      | none => absent 6)

/-- READ-BOOKING (R126). -/
def execReadBooking (r : CmdRef) (slot : Option BSlot) (s : State) : Out :=
  let s := s.taking (.readBooking r slot)
  .next (match slot with
    | none => s.reply r .badArgument
    | some i =>
      s.reply r .ok ((match s.bks.bookings.get i with
        | none => flagByte true
        | some k => flagByte false ++ bookingField k) ++ u8 (s.bks.persist (.booking i)).code))

/-- A slot matches a set of states, where `none` is FREE and the empty set means all (R126). -/
def Bks.matchesSet (b : Bks) (states : List (Option BState)) (i : BSlot) : Bool :=
  states = [] || states.contains ((b.bookings.get i).map (·.state))

/-- One entry of LIST-BOOKINGS (R126); FREE follows the eight states. -/
def Bks.listEntry (b : Bks) (i : BSlot) : List Byte :=
  u8 i.val ++ (match b.bookings.get i with
    | some k => u32 k.calRef.toNat ++ u8 k.state.ctorIdx ++ dayMinuteField k.start ++ dayMinuteField k.stop ++ flagByte k.checkedIn
    | none => absent 4 ++ u8 8 ++ absent 9) ++ u8 (b.persist (.booking i)).code

/-- LIST-BOOKINGS (R126). -/
def execListBookings (r : CmdRef) (states : List (Option BState)) (first : Nat) (s : State) : Out :=
  let s := s.taking (.listBookings r states first)
  let found := allBSlots.filter fun i => first ≤ i.val && s.bks.matchesSet states i
  .next (if 32 ≤ first then s.reply r .badArgument
    else s.reply r .ok (listField s.bks.listEntry (found.take 16) ++ optU8 ((found.drop 16).head?.map (·.val))))

/-- One entry of READ-PARTICIPANT (R126). -/
def Bks.participantEntry (b : Bks) (p : PIdx) : List Byte :=
  (match b.participants.get p with
    | none => flagByte true
    | some t => flagByte false ++ textField t.name ++ textField t.note)
    ++ u8 (b.persist (.participant p)).code ++ u8 (b.naming (fun k => isLive k.state) p).length

/-- READ-PARTICIPANT (R126). The run has no count byte (log 34). -/
def execReadParticipant (r : CmdRef) (first count : Nat) (s : State) : Out :=
  let s := s.taking (.readParticipant r first count)
  .next (if runIsBad first count 1 96 then s.reply r .badArgument
    else s.reply r .ok ((runOf 96 first count).flatMap s.bks.participantEntry))

/-- SAVE-SETTINGS (R131). -/
def execSaveSettings (r : CmdRef) (s : State) : Out :=
  let s := s.taking (.saveSettings r)
  .next ({ s with bks := { s.bks with saveImage := s.settings }.change .settings }.await r [s.bks.waitOn .settings])

/-! ## Reset and the start scan (section 6.7) -/

/-- The durable contents after a reset: the slot that was WRITING is torn (R133). -/
def Durable.tear (d : Durable) : Option WriteInFlight → Durable
  | none => d
  | some w => match w.slot with
    | .booking i => { d with bookings := d.bookings.upd i .torn }
    | .participant p => { d with participants := d.participants.upd p .torn }
    | .settings => { d with settings := .torn }

/-- The content of a slot as the scan takes it: its replacement when the checksum fails (R134). -/
def Image.scanned {α : Type} (fallback : α) : Image α → α
  | .good v => v
  | .torn => fallback

def Image.isTorn {α : Type} : Image α → Bool
  | .good _ => false
  | .torn => true

/-- The torn slots, in ascending order (R134). -/
def Durable.tornSlots (d : Durable) : List StoreSlot :=
  (allBSlots.filter fun i => (d.bookings.get i).isTorn).map .booking
    ++ ((List.finRange 96).filter fun p => (d.participants.get p).isTorn).map .participant
    ++ (if d.settings.isTorn then [.settings] else [])

/-- The store after the checksums: working copies, save image and the repairs queued; the store is held (R130, R134). -/
def Durable.scan (d : Durable) : Bks :=
  { bookings := Tab.gen fun i => (d.bookings.get i).scanned none
    participants := Tab.gen fun p => (d.participants.get p).scanned none
    saveImage := d.settings.scanned Settings.factory
    durable := d
    queue := d.tornSlots }

/-- The store scan (R134): checksums, then every reference to an empty participant slot removed. -/
def Bks.scan (b : Bks) : Bks :=
  let b' := (b.durable.tear b.writing).scan
  b'.forget (fun p => !b'.holds p) allBSlots

/-- The torn count of the start record (R134). -/
def Bks.tornCount (b : Bks) : Nat := (b.durable.tear b.writing).tornSlots.length

end Sys2Proof.Machine
end

