-- ==== Sys2Proof/Machine/Floor.lean ====
section
/-! DEFINITION. The Floor Controller's collections (chapter 2): what opens, closes, queues, evicts and promotes a seat, the ring
states, and the results of one floor change (R37). -/

namespace Sys2Proof

/-! ## Seat plans -/

def SeatPlan.lists (p : SeatPlan) (x : Seat) : Bool := p.attendees.any fun a => a.1 = x

/-- A seat of the plan: listed, or its chair or vice seat (R43, R45). -/
def SeatPlan.names (p : SeatPlan) (x : Seat) : Bool := p.lists x || p.chair = some x || p.vice = some x

/-- The participant the plan gives a seat. -/
def SeatPlan.participantOf (p : SeatPlan) (x : Seat) : Option PIdx := (p.attendees.find? fun a => a.1 = x).map (·.2)

/-- The role the plan gives a seat (R43). -/
def SeatPlan.roleOf (p : SeatPlan) (x : Seat) : Role :=
  if p.chair = some x then .chair else if p.vice = some x then .vice else .ordinary

/-- The enabled field an activation gives a seat (R43 step 3). -/
def SeatPlan.enables (p : SeatPlan) (policy : LockPolicy) (x : Seat) (online enabled : Bool) : Bool :=
  if (if p.attendees = [] then online else p.names x) then true
  else match policy with
    | .locked => false
    | .free => enabled

end Sys2Proof

namespace Sys2Proof.Machine

open Sys2Proof

/-- What an opening reads beside the floor: the speech limit in force and the room clock (R21). -/
structure FloorEnv where
  speechLimit : Nat
  day : Nat
  second : Nat
  deriving DecidableEq, Repr

def State.floorEnv (s : State) : FloorEnv := ⟨s.settings.speechLimit, s.msc.day, s.msc.second⟩

/-- The roles with priority (R21). -/
def hasPriority (r : Role) : Bool := r = .chair || r = .vice

def Flc.put (f : Flc) (x : Seat) (v : FlcSeat) : Flc := { f with seats := f.seats.upd x v }

def Flc.role (f : Flc) (x : Seat) : Role := (f.seats.get x).role

/-- A seat that may take part: enabled and ONLINE (R21, R22). -/
def Flc.takesPart (f : Flc) (x : Seat) : Bool := (f.seats.get x).enabled && (f.seats.get x).online

def Flc.speaks (f : Flc) (x : Seat) : Bool := f.speakers.any fun e => e.seat = x

def Flc.waits (f : Flc) (x : Seat) : Bool := f.queue.any fun q => q.seat = x

/-- The list has room for one more (R21). -/
def Flc.hasRoom (f : Flc) : Bool := f.speakers.length < f.limit

/-- The override hold (R33). -/
def Flc.holds (f : Flc) (policy : PriorityPolicy) : Bool := !f.overrides.isEmpty && policy = .closeAll

/-- The speech remaining an opening or a role change sets (R34, R35). -/
def startRemaining (limit : Nat) (priority : Bool) : Option Nat := if priority || limit = 0 then none else some limit

/-! ## Opening, closing, queueing -/

/-- Opening a seat (R21). -/
def Flc.openSeat (e : FloorEnv) (x : Seat) (o : Origin) (f : Flc) : Flc :=
  let p := hasPriority (f.role x)
  let entry : SpeakerEntry := ⟨x, o, e.day, e.second, startRemaining e.speechLimit p, p, false⟩
  { f with
    speakers := f.speakers ++ [entry]
    queue := f.queue.filter fun q => q.seat ≠ x
    seats := f.seats.upd x { f.seats.get x with selfMuted := false, flash := none } }

/-- Closing a seat (R21, R32). -/
def Flc.closeSeat (x : Seat) (f : Flc) : Flc :=
  { f with speakers := f.speakers.filter (fun e => e.seat ≠ x), overrides := f.overrides.filter (fun y => y ≠ x) }

/-- A seat leaves the request queue (R22). -/
def Flc.withdraw (x : Seat) (f : Flc) : Flc := { f with queue := f.queue.filter fun q => q.seat ≠ x }

/-- A refusal flash starts, or starts again, at 1 s (R29). -/
def Flc.refuse (x : Seat) (f : Flc) : Flc := f.put x { f.seats.get x with flash := some unitsPerSecond }

/-- Enqueuing a seat (R22). -/
def Flc.enqueue (e : FloorEnv) (x : Seat) (o : Origin) (f : Flc) : Flc :=
  { f with
    queue := f.queue ++ [⟨x, o, e.day, e.second⟩]
    seats := f.seats.upd x { f.seats.get x with flash := none } }

/-- Enqueuing on a seat's own request, or the refusal flash when the queue holds 24 entries (R26, R28). -/
def Flc.enqueueOrRefuse (e : FloorEnv) (x : Seat) (o : Origin) (f : Flc) : Flc :=
  if f.queue.length < 24 then f.enqueue e x o else f.refuse x

/-! ## Eviction and promotion -/

/-- The speaker an eviction closes (R23): the oldest non-priority entry, else the VICE seat's, else the CHAIR seat's. -/
def Flc.victim (f : Flc) : Option Seat :=
  match f.speakers.find? (fun e => !e.priority) with
  | some e => some e.seat
  | none => match f.speakers.find? (fun e => f.role e.seat = .vice) with
    | some e => some e.seat
    | none => (f.speakers.find? (fun e => f.role e.seat = .chair)).map (·.seat)

/-- One eviction (R23). -/
def Flc.evict (f : Flc) : Flc :=
  match f.victim with
  | some x => f.closeSeat x
  | none => f

/-- Evictions one at a time, until the list holds no more entries than the limit (R39); at most `n` of them. -/
def Flc.evictDown : Nat → Flc → Flc
  | 0, f => f
  | n + 1, f => if f.limit < f.speakers.length then evictDown n f.evict else f

/-- The promoting modes (R24). -/
def promotes (mode : FloorMode) (overflow : Overflow) : Bool :=
  mode = .auto || mode = .voice || (mode = .openMode && overflow = .queue)

/-- The origin of a promoted head (R24). -/
def promotedOrigin (o : Origin) : Origin := if o = .voice then .voice else .auto

/-- Heads opened one at a time while the list has room; under the override hold it stops at the first head without
priority (R24, R33). At most `n` heads. -/
def Flc.promoteHeads (e : FloorEnv) (hold : Bool) : Nat → Flc → Flc
  | 0, f => f
  | n + 1, f =>
    match f.queue with
    | [] => f
    | q :: _ =>
      if f.hasRoom && !(hold && !hasPriority (f.role q.seat)) then
        promoteHeads e hold n (f.openSeat e q.seat (promotedOrigin q.origin))
      else f

/-- Promotion (R24), where the mode promotes. -/
def Flc.promote (e : FloorEnv) (st : Settings) (f : Flc) : Flc :=
  if promotes f.mode st.overflow then f.promoteHeads e (f.holds st.priorityPolicy) f.queue.length else f

/-! ## Seats leaving, arriving and changing role -/

/-- A seat leaves both collections and the override set (R40, R45). -/
def Flc.leaveCollections (x : Seat) (f : Flc) : Flc := (f.closeSeat x).withdraw x

/-- What disabling and going OFFLINE do alike (R40). -/
def Flc.leaveFloor (x : Seat) (f : Flc) : Flc :=
  let f' := f.leaveCollections x
  f'.put x { f'.seats.get x with selfMuted := false, flash := none }

/-- Disabling a seat (R40). -/
def Flc.disable (x : Seat) (f : Flc) : Flc :=
  let f' := f.leaveFloor x
  f'.put x { f'.seats.get x with enabled := false }

/-- A speaker entry after a change of its seat's role (R35). -/
def SpeakerEntry.rerolled (limit : Nat) (role : Role) (e : SpeakerEntry) : SpeakerEntry :=
  { e with priority := hasPriority role, remaining := startRemaining limit (hasPriority role), overtime := false }

/-- A seat's role becomes `role`, with the effects of R32 and R35 when it changes. -/
def Flc.assignRole (limit : Nat) (x : Seat) (role : Role) (f : Flc) : Flc :=
  if f.role x = role then f
  else
    { f with
      seats := f.seats.upd x { f.seats.get x with role := role }
      speakers := f.speakers.map fun e => if e.seat = x then e.rerolled limit role else e
      overrides := if hasPriority role then f.overrides else f.overrides.filter fun y => y ≠ x }

/-- The floor emptied: both collections, the override set, every self-mute and every refusal flash (R41, R43, R44). -/
def Flc.emptied (f : Flc) : Flc :=
  { f with
    speakers := [], queue := [], overrides := []
    seats := Tab.gen fun x => { f.seats.get x with selfMuted := false, flash := none } }

/-! ## Mode and limit -/

/-- A change of the floor mode in force (R38). -/
def Flc.changeMode (mode : FloorMode) (f : Flc) : Flc :=
  if mode = f.mode then f
  else if mode = .voice then { f with mode := mode, queue := [] }
  else if f.mode = .voice then
    { f with
      mode := mode
      queue := f.queue.filter fun q => q.origin ≠ .voice
      speakers := f.speakers.map fun e => if e.origin = .voice then { e with origin := .auto } else e
      seats := Tab.gen fun x => { f.seats.get x with selfMuted := false } }
  else { f with mode := mode }

/-- A change of the open limit in force (R39). -/
def Flc.changeLimit (limit : Nat) (f : Flc) : Flc := Flc.evictDown f.speakers.length { f with limit := limit }

/-! ## Ring states -/

/-- The warning stage of an entry (R35). -/
def SpeakerEntry.warned (lead : Nat) (e : SpeakerEntry) : Bool :=
  match e.remaining with
  | some r => lead ≠ 0 && r ≤ lead
  | none => false

/-- The ring state of a seat, the first case that holds (R36). -/
def Flc.deriveRing (lead : Nat) (f : Flc) (x : Seat) : Ring :=
  let t := f.seats.get x
  if f.muteSwitch || (t.selfMuted && t.enabled) then .muted
  else if t.flash.isSome then .refused
  else match f.speakers.find? (fun e => e.seat = x) with
    | some e => if e.warned lead || e.overtime then .liveWarn else .live
    | none =>
      if (f.queue.head?.map (·.seat)) = some x then .head
      else if f.waits x then .queued
      else .off

/-- Every ring state derived afresh (R36). -/
def Flc.withRings (lead : Nat) (f : Flc) : Flc :=
  { f with seats := Tab.gen fun x => { f.seats.get x with ring := f.deriveRing lead x } }

/-! ## The results of one floor change (R37) -/

/-- The seats with the marks the Mix Engine is told. -/
def Flc.mixSpeakers (f : Flc) : List (Seat × Bool) := f.speakers.map fun e => (e.seat, e.priority)

def Flc.mixView (f : Flc) (policy : PriorityPolicy) : MixFloor := ⟨f.mixSpeakers, !f.overrides.isEmpty, policy⟩

/-- What the Screen Router is told. -/
def Flc.scrView (f : Flc) (lead : Nat) : FloorView :=
  { speakers := f.speakers.map fun e => ⟨e.seat, e.remaining, e.overtime⟩
    queue := f.queue.map (·.seat)
    roles := Tab.gen fun x => (f.seats.get x).role
    participants := Tab.gen fun x => (f.seats.get x).participant
    enabled := Tab.gen fun x => (f.seats.get x).enabled
    lead := lead }

/-- A seat takes part by voice: enabled and not self-muted (R37, 04 section 4.1). -/
def FlcSeat.eligible (t : FlcSeat) : Bool := t.enabled && !t.selfMuted

/-- The speech timer's stages of the speakers, in order. -/
def Flc.stages (lead : Nat) (f : Flc) : List (Seat × Bool × Bool) := f.speakers.map fun e => (e.seat, e.warned lead, e.overtime)

/-- The answer the Power and Clock Unit holds (R166). -/
def Flc.isEmpty (f : Flc) : Bool := f.speakers.isEmpty && f.queue.isEmpty

/-- Whether some seat's fields, seen through `p`, differ. -/
def seatsDiffer {β : Type} [DecidableEq β] (p : FlcSeat → β) (a b : Flc) : Bool :=
  allSeats.any fun x => p (a.seats.get x) ≠ p (b.seats.get x)

/-- To the Mix Engine. What it is told carries no origins, so a change of origins alone sends nothing (log 46). -/
def mixResult (s0 s1 : State) : List Instr :=
  if s0.flc.mixSpeakers ≠ s1.flc.mixSpeakers ∨ s0.flc.overrides ≠ s1.flc.overrides
      ∨ s0.settings.priorityPolicy ≠ s1.settings.priorityPolicy then
    [.floorChangeAtMix (s1.flc.mixView s1.settings.priorityPolicy)] else []

/-- To the Screen Router. What it is told carries no origins, so a change of origins alone sends nothing (log 46). -/
def scrResult (s0 s1 : State) : List Instr :=
  if s0.flc.stages s0.settings.warningLead ≠ s1.flc.stages s1.settings.warningLead
      ∨ s0.flc.queue.map (·.seat) ≠ s1.flc.queue.map (·.seat)
      ∨ seatsDiffer (fun t => (t.participant, t.role, t.enabled)) s0.flc s1.flc
      ∨ s0.settings.warningLead ≠ s1.settings.warningLead then
    [.floorChangeAtScr (s1.flc.scrView s1.settings.warningLead)] else []

/-- To the Room Lines, for LIVE-LAMP. -/
def lampResult (s0 s1 : State) : List Instr :=
  if s0.flc.speakers.isEmpty ≠ s1.flc.speakers.isEmpty then [.liveLampReport s1.flc.speakers.isEmpty] else []

/-- To the Power and Clock Unit, when the answer differs from the one last given. -/
def emptyResult (s1 : State) : List Instr :=
  if s1.flc.isEmpty ≠ s1.flc.emptyTold then [.floorEmptyReport s1.flc.isEmpty] else []

/-- To the Voice Detector and to the two holders of the enabled field, seat by seat, and the ring changes to the table bus. -/
def seatResults (s0 s1 : State) : List Instr :=
  allSeats.flatMap fun x =>
    let a := s0.flc.seats.get x
    let b := s1.flc.seats.get x
    (if a.enabled ≠ b.enabled ∨ a.selfMuted ≠ b.selfMuted then [Instr.eligibilityReport x b.eligible] else [])
      ++ (if a.enabled ≠ b.enabled then [.enabledReportAtTbc x b.enabled, .enabledReportAtScr x b.enabled] else [])
      ++ (if a.ring ≠ b.ring then [.ringChange x] else [])

/-- The floor settings of 02 section 2.1, as a FLOOR notice watches them. -/
def Settings.floorPart (st : Settings) :
    FloorMode × Nat × Overflow × PriorityPolicy × Nat × Nat × ExpiryAction :=
  (st.defaultMode, st.defaultLimit, st.overflow, st.priorityPolicy, st.speechLimit, st.warningLead, st.expiryAction)

/-- A speaker entry without its passing seconds. -/
def SpeakerEntry.still (e : SpeakerEntry) : SpeakerEntry := { e with remaining := none }

/-- One FLOOR notice when a collection, the override set, a seat's field, a floor setting or an overtime changed. It carries the
origins, so a change of an origin alone sends it (log 46). -/
def noticeResult (cause : FloorCause) (s0 s1 : State) : List Instr :=
  if s0.flc.speakers.map SpeakerEntry.still ≠ s1.flc.speakers.map SpeakerEntry.still ∨ s0.flc.queue ≠ s1.flc.queue
      ∨ s0.flc.overrides ≠ s1.flc.overrides
      ∨ seatsDiffer (fun t => (t.enabled, t.role, t.participant, t.selfMuted)) s0.flc s1.flc
      ∨ s0.settings.floorPart ≠ s1.settings.floorPart then
    [.notice .floor (floorPayload cause s1.flc)] else []

/-- The results of a floor change from `s0` to `s1`, in the order of R37's table. -/
def floorResults (cause : FloorCause) (s0 s1 : State) : List Instr :=
  mixResult s0 s1 ++ scrResult s0 s1 ++ lampResult s0 s1 ++ emptyResult s1 ++ seatResults s0 s1 ++ noticeResult cause s0 s1

/-- A seat has been disabled or has gone OFFLINE (R40). -/
def lostSeat (a b : Flc) : Bool :=
  allSeats.any fun x => let p := a.seats.get x
    let q := b.seats.get x
    (p.enabled && !q.enabled) || (p.online && !q.online)

/-- Whether promotion runs at the end of an event (R24). More causes are a self-mute changed in VOICE mode (R27), a change of the
priority policy during an override (R51), a seat disabled or gone OFFLINE (R40), and an attendee edit (R45). -/
def promotionDue (s0 s1 : State) : Bool :=
  s0.flc.speakers.map SpeakerEntry.still ≠ s1.flc.speakers.map SpeakerEntry.still || s0.flc.queue ≠ s1.flc.queue || s0.flc.limit ≠ s1.flc.limit
    || s0.flc.mode ≠ s1.flc.mode || s0.settings.overflow ≠ s1.settings.overflow || s0.flc.overrides ≠ s1.flc.overrides
    || (s0.settings.priorityPolicy ≠ s1.settings.priorityPolicy && !s1.flc.overrides.isEmpty)
    || lostSeat s0.flc s1.flc || s0.flc.plan ≠ s1.flc.plan
    || (s1.flc.mode = .voice && seatsDiffer (·.selfMuted) s0.flc s1.flc)

/-- The floor after an event's own handling: promotion where it is due, then the rings. -/
def State.settledFlc (s0 s1 : State) : Flc :=
  (if promotionDue s0 s1 then s1.flc.promote s1.floorEnv s1.settings else s1.flc).withRings s1.settings.warningLead

/-- One floor change (R37): the handling of one event took `s0` to `s1`; promotion and the rings follow, and the results go out. -/
def State.floorChange (cause : FloorCause) (s0 s1 : State) : State :=
  let s2 := { s1 with flc := State.settledFlc s0 s1 }
  { s2 with flc := { s2.flc with emptyTold := s2.flc.isEmpty } }.emit (floorResults cause s0 s2)

/-- A floor change whose own handling touches the FLC alone. -/
def State.floorEdit (s : State) (cause : FloorCause) (edit : Flc → Flc) : State :=
  State.floorChange cause s { s with flc := edit s.flc }

end Sys2Proof.Machine
end

