-- ==== Sys2Proof/Machine/Flc.lean ====
section
/-! DEFINITION. The Floor Controller's rows (chapter 2): key events, voice reports, timers, reports and commands. -/

namespace Sys2Proof.Machine

open Sys2Proof

/-! ## MIC, NEXT and PRIORITY -/

/-- A MIC press of a seat that is neither speaking nor queued, in OPEN, REQUEST and AUTO (R26). -/
def Flc.ask (e : FloorEnv) (st : Settings) (x : Seat) (f : Flc) : Flc :=
  let held := f.holds st.priorityPolicy && !hasPriority (f.role x)
  match f.mode with
  | .openMode =>
    if f.hasRoom && !held then f.openSeat e x .key
    else match st.overflow with
      | .deny => f.refuse x
      | .queue => f.enqueueOrRefuse e x .key
      | .bump => if held then f.enqueueOrRefuse e x .key else f.evict.openSeat e x .key
  | _ => f.enqueueOrRefuse e x .key

/-- Self-mute toggled by a press in VOICE mode (R27). -/
def Flc.toggleSelfMute (x : Seat) (f : Flc) : Flc :=
  let t := f.seats.get x
  if t.selfMuted then f.put x { t with selfMuted := false }
  else
    let f1 := if f.speakers.any (fun e => e.seat = x && e.origin = .voice) then f.closeSeat x else f
    let f2 : Flc := { f1 with queue := f1.queue.filter fun q => !(q.seat = x && q.origin = .voice) }
    f2.put x { f2.seats.get x with selfMuted := true }

/-- A MIC event in OPEN, REQUEST and AUTO (R25, R26). -/
def Flc.micEvent (e : FloorEnv) (st : Settings) (x : Seat) (edge : KeyEdge) (mode : KeyMode) (f : Flc) : Flc :=
  if f.speaks x then
    match mode, edge with
    | .toggle, .press => f.closeSeat x
    | .pushToTalk, .release => f.closeSeat x
    | _, _ => f
  else match f.queue.find? (fun q => q.seat = x) with
    | some q =>
      match mode, edge with
      | _, .press => f.withdraw x
      | .pushToTalk, .release => if q.origin = .key then f.withdraw x else f
      | .toggle, .release => f
    | none => if edge = .press then f.ask e st x else f

/-- A MIC event in VOICE mode (R27). -/
def Flc.micEventVoice (x : Seat) (edge : KeyEdge) (mode : KeyMode) (f : Flc) : Flc :=
  if f.speakers.any (fun e => e.seat = x && e.origin ≠ .voice) then
    match mode, edge with
    | .toggle, .press => f.closeSeat x
    | .pushToTalk, .release => f.closeSeat x
    | _, _ => f
  else if f.queue.any (fun q => q.seat = x && q.origin = .port) then
    (if edge = .press then f.withdraw x else f)
  else if edge = .press then f.toggleSelfMute x else f

/-- A PRIORITY press from CHAIR or VICE (R31). -/
def Flc.beginOverride (e : FloorEnv) (policy : PriorityPolicy) (x : Seat) (f : Flc) : Flc :=
  let f1 := { f with overrides := if x ∈ f.overrides then f.overrides else f.overrides ++ [x] }
  let f2 := f1.withdraw x
  let f3 := if f2.speaks x then f2 else (if f2.hasRoom then f2 else f2.evict).openSeat e x .priority
  if policy = .closeAll then { f3 with speakers := f3.speakers.filter (·.priority) } else f3

/-- A PRIORITY release (R32). -/
def Flc.endOverride (x : Seat) (f : Flc) : Flc := { f with overrides := f.overrides.filter fun y => y ≠ x }

/-- The origin a head takes from the chair's NEXT key or a master's grant (R30, R47). -/
def grantedOrigin (by_ : Origin) (q : QueueEntry) : Origin := if q.origin = .voice then .voice else by_

/-- A NEXT press from CHAIR or VICE (R30). -/
def Flc.grantHead (e : FloorEnv) (x : Seat) (f : Flc) : Flc :=
  match f.queue with
  | [] => f.refuse x
  | q :: _ => if f.hasRoom then f.openSeat e q.seat (grantedOrigin .next q) else f.refuse x

/-- A key event of an enabled seat that is ONLINE (R25 to R32). -/
def Flc.keyEdit (e : FloorEnv) (st : Settings) (x : Seat) (k : Key) (edge : KeyEdge) (mode : KeyMode) (f : Flc) : Flc :=
  match k with
  | .mic => if f.mode = .voice then f.micEventVoice x edge mode else f.micEvent e st x edge mode
  | .priority =>
    match edge with
    | .press => if hasPriority (f.role x) then f.beginOverride e st.priorityPolicy x else f
    | .release => f.endOverride x
  | .next => if edge = .press ∧ hasPriority (f.role x) then f.grantHead e x else f
  | .share => f

/-- Whether key events and voice reports reach the floor: they do in FULL, and outside it the collections stay empty (R10, R41, R87, log 13). -/
def Flc.hears (f : Flc) : Bool := f.power = some .full

/-- The chime request of a PRIORITY press that begins an override (R31). -/
def chimeOf (f : Flc) (x : Seat) (k : Key) (edge : KeyEdge) : List Instr :=
  if k = .priority ∧ edge = .press ∧ f.takesPart x ∧ hasPriority (f.role x) then [.chimeRequest] else []

/-- KEY_EVENT (R25, R41). -/
def execKeyEvent (x : Seat) (k : Key) (edge : KeyEdge) (mode : KeyMode) (s : State) : Out :=
  let s := s.taking (.keyEvent x k edge mode)
  .next (if s.flc.hears ∧ s.flc.takesPart x then
      (s.floorEdit .keyEvent (Flc.keyEdit s.floorEnv s.settings x k edge mode)).emit (chimeOf s.flc x k edge)
    else s)

/-! ## Voice reports -/

/-- A voice onset in VOICE mode (R28). -/
def Flc.onset (e : FloorEnv) (st : Settings) (x : Seat) (f : Flc) : Flc :=
  if f.speaks x || f.waits x then f
  else if f.hasRoom && !(f.holds st.priorityPolicy && !hasPriority (f.role x)) then f.openSeat e x .voice
  else f.enqueueOrRefuse e x .voice

/-- A voice end in VOICE mode (R28). -/
def Flc.voiceEnds (x : Seat) (f : Flc) : Flc :=
  if f.speakers.any (fun e => e.seat = x && e.origin = .voice) then f.closeSeat x
  else { f with queue := f.queue.filter fun q => !(q.seat = x && q.origin = .voice) }

/-- VOICE_ONSET (R28, R41): in VOICE mode, for a seat that takes part; an onset in flight for a seat that has meanwhile been
self-muted is ignored (log 43). -/
def execVoiceOnset (x : Seat) (s : State) : Out :=
  let s := s.taking (.voiceOnset x)
  .next (if s.flc.hears ∧ s.flc.mode = .voice ∧ s.flc.takesPart x ∧ (s.flc.seats.get x).selfMuted = false then
      s.floorEdit .voiceReport (Flc.onset s.floorEnv s.settings x)
    else s)

/-- VOICE_END (R28, R41). -/
def execVoiceEnd (x : Seat) (s : State) : Out :=
  let s := s.taking (.voiceEnd x)
  .next (if s.flc.hears ∧ s.flc.mode = .voice then s.floorEdit .voiceReport (Flc.voiceEnds x) else s)

/-! ## Timers -/

/-- An entry after a second event (R34): a number above 0 loses one second; priority entries are not counted. -/
def SpeakerEntry.ticked (e : SpeakerEntry) : SpeakerEntry :=
  match e.remaining with
  | some (n + 1) => if e.priority then e else { e with remaining := some n }
  | _ => e

/-- Whether an entry is due for its expiry (R35). -/
def SpeakerEntry.due (e : SpeakerEntry) : Bool := e.remaining = some 0 && !e.overtime && !e.priority

/-- The FLC's part of a second event (R34, R35): in FULL the entries lose a second, the Screen Router is told, and an entry that
reached 0 brings its expiry. -/
def State.speechSecond (s : State) : State :=
  let sp := s.flc.speakers.map SpeakerEntry.ticked
  if s.flc.power = some .full ∧ sp ≠ s.flc.speakers then
    let s1 := s.floorEdit .secondEvent fun f => { f with speakers := sp }
    (s1.emit [.speechRemainingReport (s1.flc.speakers.map fun e => (e.seat, e.remaining))]).emit
      (if sp.any (·.due) then [.speechTimerExpiry] else [])
  else s

/-- The expiry action on every entry that is due (R35). -/
def Flc.expire (action : ExpiryAction) (f : Flc) : Flc :=
  match action with
  | .warn => { f with speakers := f.speakers.map fun e => if e.due then { e with overtime := true } else e }
  | .close => f.speakers.foldl (fun g e => if e.due then g.closeSeat e.seat else g) f

/-- SPEECH_TIMER_EXPIRY (R35). -/
def execSpeechTimerExpiry (s : State) : Out :=
  let s := s.taking .speechTimerExpiry
  .next (s.floorEdit .secondEvent (Flc.expire s.settings.expiryAction))

/-- REFUSAL_FLASH_EXPIRY (R29). -/
def execRefusalFlashExpiry (x : Seat) (s : State) : Out :=
  .next (s.floorEdit .flashExpiry fun f => f.put x { f.seats.get x with flash := none })

/-! ## Reports from the table bus, the lines and the power unit -/

/-- A seat's arrival or loss at the floor (R20, R40, R42). A report that crossed the report of SLEEP is taken as any other (log 55). -/
def Flc.takePresence (x : Seat) (was now : Presence) (f : Flc) : Flc :=
  match now with
  | .online =>
    let t := f.seats.get x
    f.put x { t with online := true, enabled := t.enabled || (was = .absent && f.seating = .openRoom) }
  | _ =>
    let f' := f.leaveFloor x
    f'.put x { f'.seats.get x with online := false }

/-- PRESENCE_REPORT_AT_FLC (R42, R40): on an arrival the Voice Detector is told the seat's eligibility. -/
def execPresenceReportAtFlc (x : Seat) (was now : Presence) (s : State) : Out :=
  let s := s.taking (.presenceReportAtFlc x was now)
  let s1 := s.floorEdit .report (Flc.takePresence x was now)
  .next (if now = .online then s1.emit [.eligibilityReport x (s1.flc.seats.get x).eligible] else s1)

/-- MUTE_SWITCH_AT_FLC (R36). -/
def execMuteSwitchAtFlc (b : Bool) (s : State) : Out :=
  .next ((s.taking (.muteSwitchAtFlc b)).floorEdit .report fun f => { f with muteSwitch := b })

/-- A report of the power state at the FLC (R41): QUIET empties the floor; in SLEEP both collections are empty too, and no seat is
ONLINE (R8, log 8). -/
def Flc.takePower (f : Flc) (p : Power) : Flc :=
  let f' := { f with power := some p }
  match p with
  | .quiet => f'.emptied
  | .sleep =>
    { f' with
      speakers := [], queue := [], overrides := []
      seats := Tab.gen fun x => { f'.seats.get x with online := false } }
  | _ => f'

/-! ## Meetings reach the floor -/

/-- An activation report (R43). -/
def Flc.activate (st : Settings) (a : Activation) (f : Flc) : Flc :=
  let f1 := f.emptied
  { f1 with
    seats := Tab.gen fun x =>
      { f1.seats.get x with
        role := a.plan.roleOf x
        participant := a.plan.participantOf x
        enabled := a.plan.enables a.policy x (f1.seats.get x).online (f1.seats.get x).enabled }
    mode := a.mode.getD st.defaultMode
    limit := a.limit.getD st.defaultLimit
    seating := a.seating
    plan := a.plan }

/-- ACTIVATION_REPORT (R43). -/
def execActivationReport (a : Activation) (s : State) : Out :=
  let s := s.taking (.activationReport a)
  .next (s.floorEdit .report (Flc.activate s.settings a))

/-- An ending report (R44). -/
def Flc.endMeeting (st : Settings) (policy : LockPolicy) (seating : Seating) (f : Flc) : Flc :=
  let f1 := f.emptied
  { f1 with
    seats := Tab.gen fun x =>
      { f1.seats.get x with
        role := .ordinary
        participant := none
        enabled := match policy with
          | .locked => false
          | .free => (f1.seats.get x).online }
    mode := st.defaultMode
    limit := st.defaultLimit
    seating := seating
    plan := {} }

/-- ENDING_REPORT (R44). -/
def execEndingReport (policy : LockPolicy) (seating : Seating) (s : State) : Out :=
  let s := s.taking (.endingReport policy seating)
  .next (s.floorEdit .report (Flc.endMeeting s.settings policy seating))

/-- A seat in an attendee edit between two plans (R45, log 12): what it becomes beside its role. A seat dropped from the list that
is chair or vice keeps its participant, and so do a seat outside both plans and a seat that neither list names and that either plan names
as chair or vice, with the participant SET-ROLE gave it (R54), unless the edit empties the list. An edit that empties the list leaves the self-mute and the
refusal flash of an ONLINE seat, and the place of a seat that is not dropped, as they are (log 12). -/
def Flc.editSeat (old new : SeatPlan) (policy : LockPolicy) (x : Seat) (f : Flc) : Flc :=
  if new.attendees = [] ∧ old.attendees ≠ [] then
    -- the edit empties the list: dropped seats leave the collections, every participant becomes absent (R43 step 2), and the
    -- enables are those of an activation with an empty list
    let f1 := if old.lists x && !new.names x then f.leaveCollections x else f
    let t := f1.seats.get x
    let f2 := f1.put x { t with participant := none }
    if new.enables policy x t.online t.enabled then f2.put x { f2.seats.get x with enabled := true } else f2.disable x
  else if new.names x then
    f.put x { f.seats.get x with
      enabled := (f.seats.get x).enabled || (new.lists x && !old.lists x) || !old.names x
      participant := if new.lists x then new.participantOf x else (f.seats.get x).participant }
  else if old.attendees = [] ∧ new.attendees ≠ [] then
    -- the list is no longer empty: the seats the empty list had enabled are not dropped seats
    match policy with
    | .locked => f.disable x
    | .free => f
  else if old.lists x then
    match policy with
    | .locked => f.disable x
    | .free =>
      let f1 := f.leaveCollections x
      f1.put x { f1.seats.get x with participant := none }
  else if old.names x then
    match policy with
    | .locked => f.disable x
    | .free => f
  else f

/-- The seating state after an edit that empties the list or fills an empty one (R45). -/
def editedSeating (old new : SeatPlan) (policy : LockPolicy) (was : Seating) : Seating :=
  if new.attendees = [] ∧ old.attendees ≠ [] then .openRoom
  else if new.attendees ≠ [] ∧ old.attendees = [] then
    (match policy with
    | .locked => .meeting
    | .free => was)
  else was

/-- An attendee edit report (R45): seat by seat, then the roles, then the plan in force. -/
def Flc.editPlan (st : Settings) (new : SeatPlan) (policy : LockPolicy) (f : Flc) : Flc :=
  let f1 := allSeats.foldl (fun g x => g.editSeat f.plan new policy x) f
  let f2 := allSeats.foldl (fun g x => g.assignRole st.speechLimit x (new.roleOf x)) f1
  { f2 with plan := new, seating := editedSeating f.plan new policy f.seating }

/-- ATTENDEE_EDIT_REPORT (R45). -/
def execAttendeeEditReport (plan : SeatPlan) (policy : LockPolicy) (s : State) : Out :=
  let s := s.taking (.attendeeEditReport plan policy)
  .next (s.floorEdit .report (Flc.editPlan s.settings plan policy))

/-- A new seating state (R20): outside a meeting a change acts on the seats at once. The report says whether a meeting was on when it
was sent (log 58). -/
def Flc.takeSeating (seating : Seating) (inMeeting : Bool) (f : Flc) : Flc :=
  let f1 := { f with seating := seating }
  if inMeeting || f.seating = seating then f1
  else match seating with
    | .lockedRoom => allSeats.foldl (fun g x => g.disable x) f1
    | .openRoom =>
      { f1 with seats := Tab.gen fun x =>
                  if (f1.seats.get x).online && !(f1.seats.get x).enabled then
                    { f1.seats.get x with enabled := true, role := .ordinary, participant := none }
                  else f1.seats.get x }
    | .meeting => f1

/-- SEATING_REPORT (R20). -/
def execSeatingReport (seating : Seating) (inMeeting : Bool) (s : State) : Out :=
  .next ((s.taking (.seatingReport seating inMeeting)).floorEdit .report (Flc.takeSeating seating inMeeting))

/-- PARTICIPANT_DELETION_REPORT (R125). -/
def execParticipantDeletionReport (p : PIdx) (s : State) : Out :=
  .next ((s.taking (.participantDeletionReport p)).floorEdit .report fun f =>
    { f with seats := Tab.gen fun x =>
              { f.seats.get x with
                participant := if (f.seats.get x).participant = some p then none else (f.seats.get x).participant } })

/-! ## Commands (section 2.12) -/

/-- A floor command that changes the floor alone and answers OK. -/
def State.floorOk (s : State) (r : CmdRef) (edit : Flc → Flc) (payload : Flc → List Byte) : State :=
  let s1 := s.floorEdit .command edit
  s1.reply r .ok (payload s1.flc)

/-- A floor command that sets a setting, and the floor with it, and answers `result`. -/
def State.floorSet (s : State) (r : CmdRef) (set : Settings → Settings) (edit : Flc → Flc) (result : Result)
    (payload : List Byte) : State :=
  (State.floorChange .command s { s with settings := set s.settings, flc := edit s.flc }).reply r result payload

/-- GRANT, the cases of R46 in order. -/
def State.grantSeat (s : State) (r : CmdRef) (x : Seat) : State :=
  let f := s.flc
  if !f.takesPart x then s.reply r .notFound
  else if f.speaks x then s.reply r .ok
  else if !hasPriority (f.role x) && f.holds s.settings.priorityPolicy then s.reply r .state
  else if !f.hasRoom then s.reply r .full
  else s.floorOk r (Flc.openSeat s.floorEnv x .port) fun _ => []

/-- GRANT (R46). -/
def execGrant (r : CmdRef) (seat : Option Seat) (s : State) : Out :=
  .next ((s.taking (.grant r seat)).whenFull r fun s => match seat with
    | none => s.reply r .badArgument
    | some x => s.grantSeat r x)

/-- GRANT-NEXT (R47). -/
def execGrantNext (r : CmdRef) (s : State) : Out :=
  .next ((s.taking (.grantNext r)).whenFull r fun s => match s.flc.queue with
    | [] => s.reply r .notFound
    | q :: _ =>
      if !hasPriority (s.flc.role q.seat) && s.flc.holds s.settings.priorityPolicy then s.reply r .state
      else if !s.flc.hasRoom then s.reply r .full
      else s.floorOk r (Flc.openSeat s.floorEnv q.seat (grantedOrigin .port q)) fun _ => u8 q.seat.val)

/-- A seat's place in the queue counted from the head, 0 when it is not queued (R22, R48). -/
def Flc.position (f : Flc) (x : Seat) : Nat :=
  match f.queue.findIdx? (fun q => q.seat = x) with
  | some i => i + 1
  | none => 0

/-- ADD-REQUEST, the cases of R48. -/
def State.addRequestFor (s : State) (r : CmdRef) (x : Seat) : State :=
  let f := s.flc
  if !f.takesPart x then s.reply r .notFound
  else if f.speaks x then s.reply r .conflict
  else if f.waits x then s.reply r .ok (u8 (f.position x))
  else if 24 ≤ f.queue.length then s.reply r .full
  else s.floorOk r (Flc.enqueue s.floorEnv x .port) fun f => u8 (f.position x)

/-- ADD-REQUEST (R48). -/
def execAddRequest (r : CmdRef) (seat : Option Seat) (s : State) : Out :=
  .next ((s.taking (.addRequest r seat)).whenFull r fun s => match seat with
    | none => s.reply r .badArgument
    | some x => s.addRequestFor r x)

/-- CLOSE (R49). -/
def execClose (r : CmdRef) (seat : Option Seat) (s : State) : Out :=
  .next ((s.taking (.close r seat)).whenFull r fun s => match seat with
    | none => s.reply r .badArgument
    | some x =>
      if s.flc.speaks x then s.floorOk r (Flc.closeSeat x) fun _ => []
      else if s.flc.waits x then s.floorOk r (Flc.withdraw x) fun _ => []
      else s.reply r .notFound)

/-- CLOSE-SPEAKERS (R49). -/
def execCloseSpeakers (r : CmdRef) (s : State) : Out :=
  .next ((s.taking (.closeSpeakers r)).whenFull r fun s =>
    s.floorOk r (fun f => { f with speakers := [], overrides := [] }) fun _ => u8 s.flc.speakers.length)

/-- CLEAR-QUEUE (R49). -/
def execClearQueue (r : CmdRef) (s : State) : Out :=
  .next ((s.taking (.clearQueue r)).whenFull r fun s =>
    s.floorOk r (fun f => { f with queue := [] }) fun _ => u8 s.flc.queue.length)

/-- SET-FLOOR-MODE (R50). -/
def execSetFloorMode (r : CmdRef) (mode : Option FloorMode) (scope : Option Scope) (s : State) : Out :=
  .next ((s.taking (.setFloorMode r mode scope)).whenFull r fun s => match mode, scope with
    | some m, some .now => s.floorSet r id (Flc.changeMode m) .ok []
    | some m, some .default => s.floorSet r (fun st => { st with defaultMode := m }) (Flc.changeMode m) .ok []
    | _, _ => s.reply r .badArgument)

/-- SET-OPEN-LIMIT with its scope (R50, R39). -/
def State.setLimit (s : State) (r : CmdRef) (scope : Scope) (n : Int) : State :=
  let limit := (clampInt 1 8 n).toNat
  let set : Settings → Settings := fun st => if scope = .default then { st with defaultLimit := limit } else st
  if 1 ≤ n ∧ n ≤ 8 then s.floorSet r set (Flc.changeLimit limit) .ok []
  else s.floorSet r set (Flc.changeLimit limit) .clamped (u16 limit)

/-- SET-OPEN-LIMIT (R50). -/
def execSetOpenLimit (r : CmdRef) (limit : NumArg) (scope : Option Scope) (s : State) : Out :=
  .next ((s.taking (.setOpenLimit r limit scope)).whenFull r fun s => match limit, scope with
    | some n, some sc => s.setLimit r sc n
    | _, _ => s.reply r .badArgument)

/-- SET-OVERFLOW (R51). -/
def execSetOverflow (r : CmdRef) (policy : Option Overflow) (s : State) : Out :=
  .next ((s.taking (.setOverflow r policy)).whenFull r fun s => match policy with
    | some p => s.floorSet r (fun st => { st with overflow := p }) id .ok []
    | none => s.reply r .badArgument)

/-- What a change of the priority policy does to the floor (R51). -/
def Flc.takePolicy (p : PriorityPolicy) (f : Flc) : Flc :=
  if p = .closeAll ∧ f.overrides ≠ [] then { f with speakers := f.speakers.filter (·.priority) } else f

/-- SET-PRIORITY-POLICY (R51). Setting the policy in force changes nothing. -/
def execSetPriorityPolicy (r : CmdRef) (policy : Option PriorityPolicy) (s : State) : Out :=
  .next ((s.taking (.setPriorityPolicy r policy)).whenFull r fun s => match policy with
    | some p =>
      if p = s.settings.priorityPolicy then s.reply r .ok
      else s.floorSet r (fun st => { st with priorityPolicy := p }) (Flc.takePolicy p) .ok []
    | none => s.reply r .badArgument)

/-- The speech limit a number becomes (R52): 0 is none. -/
def speechLimitOf (n : Int) : Int := if n ≤ 0 then 0 else clampInt 10 3600 n

/-- SET-SPEECH-LIMIT (R52). -/
def execSetSpeechLimit (r : CmdRef) (limit lead : NumArg) (action : Option ExpiryAction) (s : State) : Out :=
  .next ((s.taking (.setSpeechLimit r limit lead action)).whenFull r fun s => match limit, lead, action with
    | some n, some l, some a =>
      let n' := speechLimitOf n
      let l' := clampInt 0 120 l
      let set : Settings → Settings := fun st =>
        { st with speechLimit := n'.toNat, warningLead := l'.toNat, expiryAction := a }
      if n = n' ∧ l = l' then s.floorSet r set id .ok []
      else s.floorSet r set id .clamped (i16 n' ++ i16 l' ++ u8 a.ctorIdx)
    | _, _, _ => s.reply r .badArgument)

/-- ENABLE-SEAT (R53). -/
def execEnableSeat (r : CmdRef) (seat : Option Seat) (enabled : Option Bool) (s : State) : Out :=
  .next ((s.taking (.enableSeat r seat enabled)).whenFull r fun s => match seat, enabled with
    | some x, some true =>
      if s.flc.seating = .lockedRoom then s.reply r .state
      else s.floorOk r (fun f => f.put x { f.seats.get x with enabled := true }) fun _ => []
    | some x, some false =>
      if (s.flc.seats.get x).enabled then s.floorOk r (Flc.disable x) fun _ => [] else s.reply r .ok
    | _, _ => s.reply r .badArgument)

/-- The role assigned by SET-ROLE (R54): another seat that holds CHAIR or VICE loses it in the same change. -/
def Flc.giveRole (limit : Nat) (x : Seat) (role : Role) (f : Flc) : Flc :=
  let f1 := if hasPriority role then
      allSeats.foldl (fun g y => if y ≠ x ∧ g.role y = role then g.assignRole limit y .ordinary else g) f
    else f
  f1.assignRole limit x role

/-- SET-ROLE with its participant resolved: `some p` sets the field to `p`, `none` keeps it (R54). -/
def State.setRoleOf (s : State) (r : CmdRef) (x : Seat) (role : Role) (participant : Option (Option PIdx)) : State :=
  s.floorOk r (fun f =>
    let f1 := f.giveRole s.settings.speechLimit x role
    match participant with
    | some p => f1.put x { f1.seats.get x with participant := p }
    | none => f1) fun _ => []

/-- SET-ROLE (R54). -/
def execSetRole (r : CmdRef) (seat : Option Seat) (role : Option Role) (p : ParticipantArg) (s : State) : Out :=
  .next ((s.taking (.setRole r seat role p)).whenFull r fun s => match seat, role, p with
    | some x, some ro, .keep => s.setRoleOf r x ro none
    | some x, some ro, .absent => s.setRoleOf r x ro (some none)
    | some x, some ro, .index (some i) =>
      if (s.bks.participants.get i).isSome then s.setRoleOf r x ro (some (some i)) else s.reply r .notFound
    | _, _, _ => s.reply r .badArgument)

/-- READ-FLOOR's payload, in the order of R55. -/
def State.floorReport (s : State) : List Byte :=
  let f := s.flc
  let st := s.settings
  u8 f.mode.ctorIdx ++ u16 f.limit ++ u8 st.defaultMode.ctorIdx ++ u16 st.defaultLimit
    ++ u8 st.overflow.ctorIdx ++ u8 st.priorityPolicy.ctorIdx ++ u16 st.speechLimit ++ u16 st.warningLead
    ++ u8 st.expiryAction.ctorIdx ++ u8 f.seating.ctorIdx ++ flagByte (f.holds st.priorityPolicy)
    ++ listField (fun e : SpeakerEntry => u8 e.seat.val ++ u8 e.origin.ctorIdx ++ u16 e.day ++ u32 e.second
        ++ optU16 e.remaining ++ flagByte e.priority ++ flagByte e.overtime) f.speakers
    ++ listField (fun q : QueueEntry => u8 q.seat.val ++ u8 (queueOriginCode q.origin) ++ u16 q.day ++ u32 q.second) f.queue
    ++ seatSet (fun x => x ∈ f.overrides)
    ++ allSeats.flatMap fun x =>
        let t := f.seats.get x
        flagByte t.enabled ++ u8 t.role.ctorIdx ++ optIndex t.participant ++ flagByte t.selfMuted ++ u8 t.ring.ctorIdx

/-- READ-FLOOR (R55). -/
def execReadFloor (r : CmdRef) (s : State) : Out :=
  let s := s.taking (.readFloor r)
  .next (s.reply r .ok s.floorReport)

end Sys2Proof.Machine
end

