-- ==== Sys2Proof/Machine/Msc.lean ====
section
/-! DEFINITION. The Meeting Scheduler (chapter 7). -/

namespace Sys2Proof.Machine

open Sys2Proof

/-! ## Bookings by slot -/

/-- The booking a slot holds, with its slot. -/
def State.held (s : State) (i : BSlot) : Option (BSlot × Booking) := (s.bks.bookings.get i).map fun k => (i, k)

/-- The current booking with its slot (section 7.2). -/
def State.current (s : State) : Option (BSlot × Booking) := s.currentSlot.bind s.held

/-- A booking comes before another: the earlier start, and with the same start the lower slot (R155). -/
def comesBefore (a b : BSlot × Booking) : Bool :=
  a.2.start.minutes < b.2.start.minutes || (a.2.start.minutes = b.2.start.minutes && a.1.val < b.1.val)

/-- A booking put in its place in a list in order of start. -/
def insertByStart (a : BSlot × Booking) : List (BSlot × Booking) → List (BSlot × Booking)
  | [] => [a]
  | b :: rest => if comesBefore a b then a :: b :: rest else b :: insertByStart a rest

/-- The bookings for which `p` holds, in order of start (R155). -/
def State.byStart (s : State) (p : Booking → Bool) : List (BSlot × Booking) :=
  ((allBSlots.filterMap s.held).filter fun a => p a.2).foldl (fun l a => insertByStart a l) []

/-! ## The agenda (R106) -/

def agendaCurrent (k : Booking) : AgendaCurrent := ⟨k.title, k.organiser, k.start, k.stop⟩

def agendaNext (k : Booking) : AgendaNext := ⟨k.title, k.start, k.stop⟩

/-- The booking that comes next on the agenda: the earliest SCHEDULED booking that starts after now (R106). -/
def State.nextBooking (s : State) : Option (BSlot × Booking) :=
  (s.byStart fun k => k.state = .scheduled && s.now < instantOf k.start).head?

/-- The agenda of the moment: the current booking and the next (R106). -/
def State.agenda (s : State) : Agenda :=
  { current := s.current.map fun a => agendaCurrent a.2
    next := s.nextBooking.map fun a => agendaNext a.2 }

/-- The agenda sent to the Screen Router (R106). -/
def State.sendAgenda (s : State) : State :=
  { s with msc := { s.msc with agendaSent := s.agenda } }.emit [.agendaReport s.agenda]

/-- The agenda goes to the Screen Router when it differs from the one last sent (R106, R138, log 16). -/
def State.refreshAgenda (s : State) : State := if s.agenda = s.msc.agendaSent then s else s.sendAgenda

/-- The booking of a slot is the current one or the next one (R106, R153). -/
def State.onAgenda (s : State) (i : BSlot) : Bool := s.current.any (·.1 = i) || s.nextBooking.any (·.1 = i)

/-- The agenda after an edit (R153): sent when the title or the organiser of the current or the next booking was edited, and
otherwise when it differs from the one last sent. -/
def State.agendaAfterEdit (s : State) (i : BSlot) (titleOrOrganiser : Bool) : State :=
  if titleOrOrganiser && s.onAgenda i then s.sendAgenda else s.refreshAgenda

/-- The agenda goes with the word of an activation or an ending (R147, R150). -/
def State.tellActivation (s : State) (isEnding : Bool) : State :=
  { s with msc := { s.msc with agendaSent := s.agenda } }.emit [.activationAtScr isEnding s.agenda]

/-! ## Seating (R149) -/

/-- A meeting is on: ACTIVE or ENDING. -/
def inMeeting (st : BState) : Bool := st = .active || st = .ending

/-- The seating state of a policy and a current booking. -/
def seatingOf (policy : LockPolicy) (current : Option (BState × List (Seat × PIdx))) : Seating :=
  match policy, current with
  | .locked, some (st, l) => if inMeeting st then (if l = [] then .openRoom else .meeting) else .lockedRoom
  | .locked, none => .lockedRoom
  | .free, _ => .openRoom

/-- The seating state of the moment. -/
def State.seating (s : State) : Seating :=
  seatingOf s.settings.lockPolicy (s.current.map fun a => (a.2.state, a.2.plan.attendees))

/-- A meeting is on now. -/
def State.meetingOn (s : State) : Bool := s.current.any fun a => inMeeting a.2.state

/-! ## Transitions (R138) -/

/-- A spent state. -/
def isSpent (st : BState) : Bool := !isLive st

/-- The record after its entry to a state: ENDED and RELEASED set the actual end to now. -/
def Msc.entered (m : Msc) (new : BState) (k : Booking) : Booking :=
  { k with
    state := new
    actualEnd := if new = .ended ∨ new = .released then some (m.day, m.second) else k.actualEnd }

/-- One transition of a booking, with another edit of its record in the same change: the working copy, and the notice. -/
def State.transition (s : State) (i : BSlot) (k : Booking) (new : BState) (edit : Booking → Booking) : State :=
  (s.setBooking i (some (s.msc.entered new (edit k)))).notify .booking (transitionPayload i k.calRef k.state new)

/-- The minute of the clock as an instant. -/
def Msc.minuteInstant (m : Msc) : Nat := instant m.day (m.second / 60 * 60)

/-- The check-in memory set: the entry minute of an AWAITING booking, the grace of an ENDING one. -/
def State.remember (s : State) (since grace : Option Nat) : State :=
  { s with msc := { s.msc with awaitingSince := since, graceHeld := grace } }

/-- The wake request and the word of a current booking (R140, R141, R166). -/
def State.askWake (s : State) : State := s.emit [.wakeRequest .booking, .bookingCurrentReport true]

/-- What an activation sends each block (R147). -/
def State.activationEffects (s : State) (k : Booking) : State :=
  ((s.emit [.activationReport ⟨k.plan, k.mode, k.limit, s.settings.lockPolicy, s.seating⟩, .keyFlagClearing false]).tellActivation
    false).emit [.sessionLampReport true, .bookingCurrentReport true]

/-- The activation: entry to ACTIVE from SCHEDULED, PENDING or AWAITING (R147). -/
def State.activate (s : State) (i : BSlot) (k : Booking) (edit : Booking → Booking) : State :=
  ((s.remember none none).transition i k .active edit).activationEffects (edit k)

/-- Entry to ENDING as the other blocks see it (R148). -/
def State.endingBegins (s : State) : State := s.emit [.endingMarkReport true, .endingBlinkReport true]

/-- Departure from ENDING back to ACTIVE as the other blocks see it (R148). -/
def State.endingStops (s : State) : State := s.emit [.endingMarkReport false, .endingBlinkReport false]

/-- What an ending sends each block (R150). Every set MIC flag is consumed at once (R146, log 14); the Screen Router clears its
ending mark on the word of the ending. -/
def State.endingEffects (s : State) : State :=
  (((s.clearKeyFlags (fun _ => true) [.mic]).emit [.endingReport s.settings.lockPolicy s.seating]).tellActivation true).emit
    [.sessionLampReport false, .endingBlinkReport false, .bookingCurrentReport false]

/-- An ending: entry to ENDED or RELEASED (R150). The check-in memory is the current booking's and goes with it; the ending of another
booking in a catch-up leaves the memory alone (log 15). -/
def State.endBooking (s : State) (i : BSlot) (k : Booking) (new : BState) : State :=
  ((if s.currentSlot = some i then s.remember none none else s).transition i k new id).endingEffects

/-! ## Check-in (R142, R143) -/

/-- A seat qualifies for key check-in (R143). -/
def qualifies (k : Booking) (x : Seat) : Bool := k.plan.attendees = [] || k.plan.names x

/-- A check-in of the current booking (R142). -/
def State.checkInNow (s : State) (i : BSlot) (k : Booking) : State :=
  match k.state with
  | .pending =>
    if k.checkedIn then s
    else (s.setBooking i (some { k with checkedIn := true })).notify .booking (checkedInPayload i k.calRef)
  | .awaiting => s.activate i k fun b => { b with checkedIn := true }
  | _ => s

/-- The check of the MIC flags at an entry to PENDING or AWAITING (R143). -/
def State.keyFlagCheck (s : State) (i : BSlot) : State :=
  match s.bks.bookings.get i with
  | none => s
  | some k =>
    if allSeats.any (fun x => (s.tbc.seats.get x).flag.mic && qualifies k x) then
      (s.clearKeyFlags (qualifies k) [.mic]).checkInNow i k
    else s

/-- MIC_FLAG_REPORT (R143). A flag that CLEAR-KEY-FLAGS has cleared since is out of the scheduler's view (R18). -/
def execMicFlagReport (x : Seat) (s : State) : Out :=
  let s := s.taking (.micFlagReport x)
  .next (match s.current with
    | none => s
    | some (i, k) =>
      if ((k.state = .pending ∧ k.checkedIn = false) ∨ k.state = .awaiting) ∧ qualifies k x
          ∧ (s.tbc.seats.get x).flag.mic then
        (s.clearKeyFlags (fun y => y = x) [.mic]).checkInNow i k
      else s)

/-- OCCUPANCY_EDGE (R142): a check-in source. -/
def execOccupancyEdge (l : Line) (e : LineEdge) (s : State) : Out :=
  let s := s.taking (.occupancyEdge l e)
  .next (match s.current with
    | none => s
    | some (i, k) => s.checkInNow i k)

/-! ## Due instants -/

/-- No check-in is needed, or it has been had (R141, R155). -/
def gathered (k : Booking) : Bool := k.noShow = 0 || k.checkedIn

/-- The start of the earliest other live booking that starts at or after an end (R145). -/
def State.nextStartFrom (s : State) (i : BSlot) (from_ : Nat) : Option Nat :=
  (s.byStart fun k => isLive k.state && from_ ≤ instantOf k.start).find? (fun a => a.1 ≠ i) |>.map fun a => instantOf a.2.start

/-- The grace deadline of a booking under a grace in minutes (R145). -/
def State.graceDeadline (s : State) (i : BSlot) (k : Booking) (grace : Nat) : Nat :=
  let byGrace := instantOf k.stop + 60 * grace
  match s.nextStartFrom i (instantOf k.stop) with
  | some n => min byGrace n
  | none => byGrace

/-- The grace held for an ENDING booking, or the setting when none is held. -/
def State.graceInForce (s : State) : Nat := s.msc.graceHeld.getD s.settings.overrunGrace

/-- The no-show deadline of an AWAITING booking (R144). -/
def State.noShowDeadline (s : State) (k : Booking) : Nat :=
  max (instantOf k.start + 60 * k.noShow) ((s.msc.awaitingSince.map fun m => m + 60 * k.noShow).getD 0)

/-- The instant at which an AWAITING booking is released (R144). -/
def State.releaseInstant (s : State) (k : Booking) : Nat := min (s.noShowDeadline k) (instantOf k.stop)

/-- The instant of a booking's pre-start lead (R140). -/
def leadInstant (lead : Nat) (k : Booking) : Nat := instantOf k.start - 60 * lead

/-! ## Evaluation (R139) -/

/-- Entry to PENDING (R140). -/
def State.enterPending (s : State) (i : BSlot) (k : Booking) : State :=
  (((s.remember none none).transition i k .pending id).askWake.refreshAgenda).keyFlagCheck i

/-- Entry to AWAITING (R141). -/
def State.enterAwaiting (s : State) (i : BSlot) (k : Booking) : State :=
  (((s.remember (some s.msc.minuteInstant) none).transition i k .awaiting id).askWake.refreshAgenda).keyFlagCheck i

/-- A booking leaves SCHEDULED or PENDING at its start (R141). -/
def State.beginBooking (s : State) (i : BSlot) (k : Booking) : State :=
  if gathered k then (s.emit [.wakeRequest .booking]).activate i k id else s.enterAwaiting i k

/-- Entry to ENDING (R145, R148): the grace in force is held from here on. -/
def State.enterEnding (s : State) (i : BSlot) (k : Booking) (grace : Nat) : State :=
  ((s.remember none (some grace)).transition i k .ending id).refreshAgenda.endingBegins

/-- One due transition of the current booking (R141, R144, R145); `none` when none is due. -/
def State.dueOfCurrent (s : State) (i : BSlot) (k : Booking) : Option State :=
  match k.state with
  | .pending => if instantOf k.start ≤ s.now ∧ s.now < instantOf k.stop then some (s.beginBooking i k) else none
  | .awaiting => if s.releaseInstant k ≤ s.now then some (s.endBooking i k .released) else none
  | .active =>
    if instantOf k.stop ≤ s.now then
      (if s.now < s.graceDeadline i k s.settings.overrunGrace then some (s.enterEnding i k s.settings.overrunGrace)
        else some (s.endBooking i k .ended))
    else none
  | .ending => if s.graceDeadline i k s.graceInForce ≤ s.now then some (s.endBooking i k .ended) else none
  | _ => none

/-- A SCHEDULED booking that has reached its lead and not its end (R140, R141). One whose end has passed waits for a catch-up
(log 40). -/
def State.isDue (s : State) (k : Booking) : Bool :=
  k.state = .scheduled && leadInstant s.settings.preStartLead k ≤ s.now && s.now < instantOf k.stop

/-- One due transition of a SCHEDULED booking while none is current: the earliest by start (R140, R141). -/
def State.dueOfScheduled (s : State) : Option State :=
  match s.byStart s.isDue with
  | [] => none
  | (i, k) :: _ => if s.now < instantOf k.start then some (s.enterPending i k) else some (s.beginBooking i k)

/-- One due transition: the current booking's first, and the next booking's when there is none (R146). -/
def State.dueOnce (s : State) : Option State :=
  match s.current with
  | some (i, k) => s.dueOfCurrent i k
  | none => s.dueOfScheduled

/-- Transitions taken one after another, at most `n` of them. -/
def evaluateFor : Nat → State → State
  | 0, s => s
  | n + 1, s => match s.dueOnce with
    | some t => evaluateFor n t
    | none => s

/-- An evaluation (R139): while the clock is not SET it does nothing. 32 bookings have at most 5 transitions each. -/
def State.evaluate (s : State) : State := if s.msc.clock = .set then evaluateFor 160 s else s

/-- NO_SHOW_DEADLINE (R144): the moment at which the AWAITING booking's release falls due. -/
def execNoShowDeadline (s : State) : Out :=
  .next (if s.current.any (fun a => a.2.state = .awaiting && s.releaseInstant a.2 ≤ s.now) then s.evaluate else s)

/-- GRACE_DEADLINE (R145): the moment at which the ENDING booking's grace runs out. -/
def execGraceDeadline (s : State) : Out :=
  .next (if s.current.any (fun a => a.2.state = .ending && s.graceDeadline a.1 a.2 s.graceInForce ≤ s.now) then s.evaluate else s)

/-! ## The clock (section 7.1) -/

/-- The CLOCK notice of the clock as it stands. -/
def State.tellClock (s : State) : State := s.notify .clock (clockPayload s.msc)

/-- The clock one second on (R135). -/
def Msc.tick (m : Msc) : Msc :=
  if m.second + 1 < 86400 then { m with second := m.second + 1 } else { m with day := m.day + 1, second := 0 }

/-- The end of day 32767 (R135). -/
def Msc.atEnd (m : Msc) : Bool := 32767 ≤ m.day && 86399 ≤ m.second

/-- SECOND_EVENT (R135): the clock, then the speech timers, then at a minute the evaluation. -/
def execSecondEvent (s : State) : Out :=
  .next (if s.msc.clock = .lost then s
    else if s.msc.atEnd then { s with msc := { s.msc with clock := .lost } }.tellClock
    else
      let s1 := { s with msc := s.msc.tick }.speechSecond
      if s1.msc.second % 60 = 0 then s1.evaluate else s1)

/-- The clock loses its time (R136). -/
def State.loseClock (s : State) : State :=
  if s.msc.clock = .lost then s else { s with msc := { s.msc with clock := .lost } }.tellClock

/-! ## Catch-up (R155) -/

/-- The place of a live state in the order SCHEDULED, PENDING, AWAITING, ACTIVE, ENDING; a spent state comes after them. -/
def stateOrder : BState → Nat
  | .scheduled => 0 | .pending => 1 | .awaiting => 2 | .active => 3 | .ending => 4
  | .ended | .released | .cancelled => 5

/-- The grace a catch-up gives a booking: the one held for an ENDING booking, else the one in force (R155). -/
def State.catchUpGrace (s : State) (k : Booking) : Nat := if k.state = .ending then s.graceInForce else s.settings.overrunGrace

/-- The due state of a booking for now (R155). -/
def State.dueState (s : State) (i : BSlot) (k : Booking) : BState :=
  if s.now < leadInstant s.settings.preStartLead k then .scheduled
  else if s.now < instantOf k.start then .pending
  else if s.now < instantOf k.stop then (if gathered k then .active else .awaiting)
  else if !gathered k then .released
  else if s.now < s.graceDeadline i k (s.catchUpGrace k) then .ending
  else .ended

/-- The activation that a booking entering ENDING needs when it was never ACTIVE (R155). -/
def State.activateOver (s : State) (old : BState) (k : Booking) : State := if inMeeting old then s else s.activationEffects k

/-- Entry to ENDING in a catch-up (R155): from a state before ACTIVE it is the activation too. -/
def State.catchUpEnding (s : State) (i : BSlot) (k : Booking) : State :=
  ((((s.remember none (some s.settings.overrunGrace)).transition i k .ending id).emit [.wakeRequest .booking]).activateOver
    k.state k).refreshAgenda.endingBegins

/-- A booking taken to its due state, with the effects of the state it enters (R155). -/
def State.enterDue (s : State) (i : BSlot) (k : Booking) (due : BState) : State :=
  match due with
  | .pending => s.enterPending i k
  | .awaiting => s.enterAwaiting i k
  | .active => (s.emit [.wakeRequest .booking]).activate i k id
  | .ending => s.catchUpEnding i k
  | .ended => s.endBooking i k .ended
  | .released => s.endBooking i k .released
  | .scheduled | .cancelled => s

/-- A booking returned to SCHEDULED (R155, R156). -/
def State.returnToScheduled (s : State) (i : BSlot) (k : Booking) : State := (s.transition i k .scheduled id).refreshAgenda

/-- One booking of a catch-up. `earlier` is the list of slots already taken; `start` marks the start evaluation (R155, log 15). -/
def State.catchUpOne (start : Bool) (earlier : List BSlot) (i : BSlot) (s : State) : State :=
  match s.bks.live i with
  | none => s
  | some k =>
    let due := s.dueState i k
    let blocked := if start then earlier.any (fun j => (s.bks.bookings.get j).any fun b => isCurrent b.state)
      else s.currentSlot.any fun j => j ≠ i
    if isSpent due then s.enterDue i k due
    else if blocked then (if start && isCurrent k.state then s.returnToScheduled i k else s)
    else if stateOrder due ≤ stateOrder k.state then s
    else s.enterDue i k due

/-- The bookings of a catch-up, in order. -/
def catchUpOver (start : Bool) : List BSlot → List BSlot → State → State
  | _, [], s => s
  | earlier, i :: rest, s => catchUpOver start (earlier ++ [i]) rest (s.catchUpOne start earlier i)

/-- The slots of the live bookings in order of start (R155). -/
def State.liveSlots (s : State) : List BSlot := (s.byStart fun k => isLive k.state).map (·.1)

/-- The check-in memory of a current booking kept across a reset (R144, R145, log 15): an AWAITING one counts its minutes from here,
an ENDING one holds the overrun grace in force. -/
def State.recall (s : State) : State :=
  match s.current with
  | none => s
  | some (_, k) => s.remember
      (if k.state = .awaiting then some (s.msc.awaitingSince.getD s.msc.minuteInstant) else none)
      (if k.state = .ending then some s.graceInForce else none)

/-- A catch-up (R155). A departure of the current booking brings an evaluation (R139), before which the start evaluation sets the
check-in memory of a booking it kept (log 15). -/
def State.catchUp (s : State) (start : Bool) : State :=
  let caught := catchUpOver start [] s.liveSlots s
  let s1 := if start then caught.recall else caught
  if s.currentSlot.isSome && s1.currentSlot ≠ s.currentSlot then s1.evaluate else s1

/-! ## The start evaluation (R156) -/

/-- Overlapping live bookings cancelled, the earlier start kept. -/
def cancelOverlaps : List Booking → List (BSlot × Booking) → State → State
  | _, [], s => s
  | taken, (i, k) :: rest, s =>
    if taken.any (overlap k) then cancelOverlaps taken rest (s.transition i k .cancelled id)
    else cancelOverlaps (taken ++ [k]) rest s

/-- With the clock not SET every live booking returns to SCHEDULED (R156). -/
def State.allScheduled (s : State) : State :=
  s.liveSlots.foldl (fun t i => match t.bks.live i with
    | some k => if k.state = .scheduled then t else t.transition i k .scheduled id
    | none => t) s

/-- A current booking that the start evaluation comes out with is taken up afresh (R156, R166, log 15): the word of it goes to the
Power and Clock Unit, and a meeting gets its activation. -/
def State.takeUpCurrent (s : State) : State :=
  match s.current with
  | none => s
  | some (_, k) =>
    let s1 := s.emit [.bookingCurrentReport true]
    let s2 := if inMeeting k.state then s1.activationEffects k else s1
    if k.state = .ending then s2.endingBegins else s2

/-- The word of the seating state to the Floor Controller (R149), with whether a meeting is on as it is sent (log 58). -/
def State.tellSeating (s : State) : State := s.emit [.seatingReport s.seating s.meetingOn]

/-- The booking that was current has left the current states without an ending, and none is current now (R166). -/
def State.leftCurrent (s0 s1 : State) : Bool :=
  s1.currentSlot.isNone && s0.currentSlot.any fun i => (s1.bks.bookings.get i).any fun k => k.state = .scheduled || k.state = .cancelled

/-- The start evaluation (R156). -/
def State.startEvaluation (s : State) : State :=
  let s0 := cancelOverlaps [] (s.byStart fun k => isLive k.state) s
  let s1 := if s0.msc.clock = .set then (s0.catchUp true).takeUpCurrent else s0.allScheduled
  let s2 := if s.leftCurrent s1 then s1.emit [.bookingCurrentReport false] else s1
  { s2 with msc := { s2.msc with agendaSent := s2.agenda } }.tellSeating.emit [.agendaReport s2.agenda]

/-! ## Reports from the Booking Store (R153) -/

/-- A PENDING booking whose start has moved away returns to SCHEDULED (R153). -/
def State.stepBack (s : State) (i : BSlot) (startMoved : Bool) : State :=
  match s.bks.bookings.get i with
  | none => s
  | some k =>
    if startMoved ∧ k.state = .pending ∧ s.msc.clock = .set ∧ s.now < leadInstant s.settings.preStartLead k then
      (s.transition i k .scheduled id).emit [.bookingCurrentReport false]
    else s

/-- The seats an edit dropped from the attendee list (R103, R153). -/
def droppedSeats (old new : SeatPlan) : List Seat := allSeats.filter fun x => old.lists x && !new.lists x

/-- What an edit of a running meeting sends the room (R153). -/
def State.passEdit (s : State) (st : BState) (old new : SeatPlan) : State :=
  let policy := s.settings.lockPolicy
  let seating := fun l => seatingOf policy (some (st, l))
  s.emit ((if old = new then [] else [Instr.attendeeEditReport new policy])
    ++ (if droppedSeats old new = [] then [] else [.droppedSeatsReport (droppedSeats old new)])
    ++ (if seating old.attendees = seating new.attendees then [] else [.seatingReport (seating new.attendees) true]))

/-- BOOKING_REPORT (R153). The word that no booking is current, for a booking cancelled from PENDING (R166), is withheld when another
booking has become current before the report is taken (log 51). What an edit does is judged by the booking's state as the report is
taken (log 59). -/
def execBookingReport (b : BookingReport) (s : State) : Out :=
  let s := s.taking (.bookingReport b)
  .next (match b with
    | .added _ => s.refreshAgenda.evaluate
    | .edited i old new titled moved =>
      let s1 := s.stepBack i moved
      let s2 := match s1.bks.bookings.get i with
        | some k => if inMeeting k.state then s1.passEdit k.state old new else s1
        | none => s1
      (s2.agendaAfterEdit i titled).evaluate
    | .cancelled _ wasPending =>
      let s1 := if wasPending && s.currentSlot.isNone then s.emit [.bookingCurrentReport false] else s
      s1.refreshAgenda.evaluate)

/-! ## Commands -/

/-- The clock set to a time (R137). -/
def Msc.setTo (m : Msc) (day second : Nat) : Msc := { m with clock := .set, day := day, second := second }

/-- SET-CLOCK (R137). -/
def execSetClock (r : CmdRef) (day second : Nat) (s : State) : Out :=
  let s := s.taking (.setClock r day second)
  .next (if 32767 < day ∨ 86399 < second then s.reply r .badArgument
    else if s.pcu.room = .stopped then s.reply r .state
    else ({ s with msc := s.msc.setTo day second }.tellClock.catchUp false).reply r .ok)

/-- The first instant at which a transition is due (R137). -/
def State.nextDue (s : State) : Option Nat :=
  if s.msc.clock ≠ .set then none
  else match s.current with
    | some (i, k) => match k.state with
      | .pending => some (instantOf k.start)
      | .awaiting => some (s.releaseInstant k)
      | .active => some (instantOf k.stop)
      | _ => some (s.graceDeadline i k s.graceInForce)
    | none => (s.byStart fun k => k.state = .scheduled && s.now < instantOf k.stop).head?.map fun a =>
        leadInstant s.settings.preStartLead a.2

/-- The next minute event after now. -/
def Msc.nextMinute (m : Msc) : Nat := m.minuteInstant + 60

/-- The minute event READ-CLOCK reports: none past the end of day 32767, where the clock is LOST (R135, R137). -/
def State.nextDueMinute (s : State) : Option Nat :=
  (s.nextDue.map fun t => max t s.msc.nextMinute).filter fun t => t < 32768 * 86400

/-- READ-CLOCK (R137). -/
def execReadClock (r : CmdRef) (s : State) : Out :=
  let s := s.taking (.readClock r)
  .next (s.reply r .ok (clockPayload s.msc ++ (match s.nextDueMinute with
    | some t => u16 (t / 86400) ++ u32 (t % 86400)
    | none => absent 6)))

/-- The state a booking slot holds now. -/
def State.stateOf (s : State) (i : BSlot) : List Byte := ((s.bks.bookings.get i).map fun k => u8 k.state.ctorIdx).getD []

/-- CHECK-IN (R142): the completion carries the slot and the new state. -/
def execCheckIn (r : CmdRef) (s : State) : Out :=
  let s := s.taking (.checkIn r)
  .next (match s.current with
    | none => s.reply r .notFound
    | some (i, k) =>
      if k.state = .pending ∨ k.state = .awaiting then
        let s1 := s.checkInNow i k
        s1.await r (s.bks.waitsIf (s1.bks.bookings.get i ≠ s.bks.bookings.get i) (.booking i)) (u8 i.val ++ s1.stateOf i)
      else s.reply r .notFound)

/-- The end of the meeting moved (R151): an ENDING booking is ACTIVE again; then an evaluation. -/
def State.extendTo (s : State) (r : CmdRef) (i : BSlot) (k : Booking) (stop : DayMinute) : State :=
  let moved : Booking := { k with stop := stop }
  let s1 := if k.state = .ending then
      ((s.remember none none).transition i k .active fun b => { b with stop := stop }).endingStops
    else s.setBooking i (some moved)
  (s1.refreshAgenda.await r (s.bks.waitsIf (s1.bks.bookings.get i ≠ s.bks.bookings.get i) (.booking i))).evaluate

/-- EXTEND (R151): the checks in the order of the table. One that is refused brings no evaluation (log 49). -/
def execExtend (r : CmdRef) (slot : Option BSlot) (stop : DayMinute) (s : State) : Out :=
  let s := s.taking (.extend r slot stop)
  .next (match slot with
    | none => s.reply r .badArgument
    | some i =>
      if !validTime stop then s.reply r .badArgument
      else match s.bks.bookings.get i with
        | none => s.reply r .notFound
        | some k =>
          if !inMeeting k.state then s.reply r .state
          else if s.msc.clock ≠ .set then s.reply r .clockUnset
          else if stop.minutes < k.start.minutes + 5 ∨ k.start.minutes + 720 < stop.minutes ∨ instantOf stop ≤ s.now then
            s.reply r .badArgument
          else if s.bks.clashes (some i) { k with stop := stop } then s.reply r .conflict
          else s.extendTo r i k stop)

/-- END-NOW (R152). One that is refused brings no evaluation (log 49). -/
def execEndNow (r : CmdRef) (slot : Option BSlot) (s : State) : Out :=
  let s := s.taking (.endNow r slot)
  .next (match slot with
    | none => s.reply r .badArgument
    | some i => match s.bks.bookings.get i with
      | none => s.reply r .notFound
      | some k =>
        if inMeeting k.state then
          ((s.endBooking i k .ended).await r [s.bks.waitOn (.booking i)]).evaluate
        else if k.state = .awaiting then
          ((s.endBooking i k .released).await r [s.bks.waitOn (.booking i)]).evaluate
        else s.reply r .state)

/-- SET-PRE-START-LEAD (R154): an evaluation follows, also when the value is the one in force (log 56). -/
def execSetPreStartLead (r : CmdRef) (v : NumArg) (s : State) : Out :=
  .next ((s.taking (.setPreStartLead r v)).setNumber r 0 30 v i16
    fun n s => { s with settings := { s.settings with preStartLead := n.toNat } }.evaluate)

/-- SET-OVERRUN-GRACE (R154). -/
def execSetOverrunGrace (r : CmdRef) (v : NumArg) (s : State) : Out :=
  .next ((s.taking (.setOverrunGrace r v)).setNumber r 0 15 v i16
    fun n s => { s with settings := { s.settings with overrunGrace := n.toNat } })

/-- SET-LOCK-POLICY (R154, R149). -/
def execSetLockPolicy (r : CmdRef) (policy : Option LockPolicy) (s : State) : Out :=
  let s := s.taking (.setLockPolicy r policy)
  .next (match policy with
    | none => s.reply r .badArgument
    | some p =>
      if p = s.settings.lockPolicy then s.reply r .ok
      else { s with settings := { s.settings with lockPolicy := p } }.tellSeating.reply r .ok)

end Sys2Proof.Machine
end

