-- ==== Sys2Proof/Machine/Rln.lean ====
section
/-! DEFINITION. The Room Lines (chapter 8), and the timers that run from the room crystal (R173). -/

namespace Sys2Proof.Machine

open Sys2Proof

def allLines : List Line := List.finRange 8

def Rln.put (r : Rln) (l : Line) (t : LineState) : Rln := { r with lines := r.lines.upd l t }

/-! ## Outputs -/

/-- The special signal of a function; GENERAL and the input functions have none (R158, R159). -/
def Rln.signal (r : Rln) : LineFn → Option Bool
  | .sessionLamp => some r.sessionLamp
  | .liveLamp => some r.liveLamp
  | .endingBlink => some (r.blink.any (·.on))
  | .chime => some r.chime.isSome
  | _ => none

/-- What the part drives on a pin: nothing on an input or a released line, else the special signal AND the general level (R158). -/
def Rln.pin (r : Rln) (c : LineConfig) : Option PinLevel :=
  match c.direction with
  | .input => none
  | .output =>
    if c.released then none
    else some (if c.level = .high && (r.signal c.fn).getD true then .high else .low)

/-- Half a period of the ending blink, and the length of a chime pulse (R159). -/
def blinkPhase : Nat := unitsOfMs 500

def chimePulse : Nat := unitsOfMs 200

/-- SESSION_LAMP_REPORT (R159). -/
def execSessionLampReport (on : Bool) (s : State) : Out :=
  let s := s.taking (.sessionLampReport on)
  .next { s with rln := { s.rln with sessionLamp := on } }

/-- LIVE_LAMP_REPORT (R159). -/
def execLiveLampReport (empty : Bool) (s : State) : Out :=
  let s := s.taking (.liveLampReport empty)
  .next { s with rln := { s.rln with liveLamp := !empty } }

/-- ENDING_BLINK_REPORT (R159): a start begins an on phase, a stop leaves the signal off. -/
def execEndingBlinkReport (start : Bool) (s : State) : Out :=
  let s := s.taking (.endingBlinkReport start)
  .next { s with rln := { s.rln with blink := if start then some ⟨true, blinkPhase⟩ else none } }

/-- ENDING_BLINK_PHASE (R159): a running blink goes to its other phase. -/
def execEndingBlinkPhase (s : State) : Out :=
  .next { s with rln := { s.rln with blink := s.rln.blink.map fun b => ⟨!b.on, blinkPhase⟩ } }

/-- CHIME_REQUEST (R159): the pulse starts, or starts again at 200 ms. -/
def execChimeRequest (s : State) : Out :=
  let s := s.taking .chimeRequest
  .next { s with rln := { s.rln with chime := some chimePulse } }

/-- CHIME_PULSE_END (R159). -/
def execChimePulseEnd (s : State) : Out := .next { s with rln := { s.rln with chime := none } }

/-! ## Combined levels (R161) -/

/-- An input line with the function. -/
def serves (c : LineConfig) (fn : LineFn) : Bool := c.direction = .input && c.fn = fn

/-- The level at which an input function is asserted (R161). -/
def assertedLevel : LineFn → PinLevel
  | .supplyWarn => .low
  | _ => .high

/-- The combined level of a function: asserted while any line serving it has the asserting level (R161). -/
def Rln.combined (r : Rln) (st : Settings) (fn : LineFn) : Bool :=
  allLines.any fun l => serves (st.line.get l) fn && (r.lines.get l).settled = some (assertedLevel fn)

/-- Every line serving the function has a settled level (R157). -/
def Rln.allSettled (r : Rln) (st : Settings) (fn : LineFn) : Bool :=
  allLines.all fun l => !serves (st.line.get l) fn || (r.lines.get l).settled.isSome

/-- The level to report, when one is due: the first once every line serving it is settled, later ones on a change (R157, R161). -/
def Rln.levelDue (r : Rln) (st : Settings) (fn : LineFn) (told : Option Bool) : Option Bool :=
  match told with
  | none => if r.allSettled st fn then some (r.combined st fn) else none
  | some b => if r.combined st fn = b then none else some (r.combined st fn)

/-- The reports of the two combined levels that are due (R161). -/
def State.tellLevels (s : State) : State :=
  let m := s.rln.levelDue s.settings .muteSwitch s.rln.muteTold
  let w := s.rln.levelDue s.settings .supplyWarn s.rln.supplyTold
  { s with rln := { s.rln with muteTold := m.or s.rln.muteTold, supplyTold := w.or s.rln.supplyTold } }.emit
    ((m.toList.flatMap fun b => [Instr.muteSwitchAtMix b, Instr.muteSwitchAtFlc b]) ++ w.toList.map Instr.supplyWarningReport)

/-! ## Inputs and edges -/

/-- One sample of an input line: its state, and the edge of a known settled level (R160). -/
def LineState.sampled (t : LineState) (level : PinLevel) : LineState × Option LineEdge :=
  if t.settled = some level then ({ t with run := none }, none)
  else
    let n := match t.run with
      | some (l, n) => if l = level then n + 1 else 1
      | none => 1
    if n < 3 then ({ t with run := some (level, n) }, none)
    else ({ t with settled := some level, run := none },
      if t.settled.isSome then some (if level = .high then .rise else .fall) else none)

/-- The edge choice includes the edge (R160). -/
def includesEdge : EdgeChoice → LineEdge → Bool
  | .both, _ => true
  | .rise, e => e = .rise
  | .fall, e => e = .fall

/-- The room is QUIET or SLEEP as the lines hold it. -/
def lowPower (p : Option Power) : Bool := p = some .quiet || p = some .sleep

/-- The level an edge leads to. -/
def levelAfter : LineEdge → PinLevel
  | .rise => .high
  | .fall => .low

/-- A qualifying edge (R160, R161, R162): flag, notice, function, wake. -/
def State.takeEdge (s : State) (l : Line) (e : LineEdge) : State :=
  let c := s.settings.line.get l
  let t := s.rln.lines.get l
  if includesEdge c.edges e then
    { s with rln := s.rln.put l { t with flag := true } }.emit
      ((if c.notice then [Instr.notice .line (linePayload l e (levelAfter e) c.fn)] else [])
        ++ (if c.fn = LineFn.occupancy then [Instr.occupancyEdge l e] else [])
        ++ (if c.wake && lowPower s.rln.power && !t.suppressed then [Instr.wakeRequest .line] else []))
  else s

/-- The sampling of one line (R160): outputs are not read. -/
def State.sampleLine (s : State) (l : Line) (level : PinLevel) : State :=
  match (s.settings.line.get l).direction with
  | .output => s
  | .input =>
    let r := (s.rln.lines.get l).sampled level
    let s1 := { s with rln := s.rln.put l r.1 }
    match r.2 with
    | some e => s1.takeEdge l e
    | none => s1

/-! ## The room-crystal timers (R173, log 4) -/

def FlcSeat.ticked (t : FlcSeat) : FlcSeat := { t with flash := Machine.ticked t.flash }

def PortState.ticked (t : PortState) : PortState := { t with timer := Machine.ticked t.timer }

def Blink.ticked (b : Blink) : Blink := { b with left := b.left - 1 }

/-- Every timer of the room crystal runs down by one sampling. -/
def State.tickTimers (s : State) : State :=
  { s with
    pcu := { s.pcu with idle := ticked s.pcu.idle, sleep := ticked s.pcu.sleep }
    flc := { s.flc with seats := Tab.gen fun x => (s.flc.seats.get x).ticked }
    cph := { s.cph with ports := Tab.gen fun p => (s.cph.ports.get p).ticked }
    rln := { s.rln with chime := ticked s.rln.chime, blink := s.rln.blink.map Blink.ticked } }

/-- LINE_SAMPLE (R160): every input line is sampled, in ascending order of the lines (log 50), and the combined levels that changed are reported. -/
def execLineSample (levels : Tab PinLevel 8) (s : State) : Out :=
  .next (allLines.foldl (fun t l => t.sampleLine l (levels.get l)) s.tickTimers).tellLevels

/-- A report of the power state at the lines (R162). -/
def Rln.takePower (r : Rln) (p : Power) : Rln :=
  { r with
    power := some p
    lines := Tab.gen fun l =>
      let t := r.lines.get l
      if lowPower (some p) then { t with suppressed := t.suppressed || t.flag } else { t with suppressed := false } }

/-! ## Commands (section 8.5) -/

/-- A field of SET-LINE: kept when not given, `none` when the given value is outside its set. -/
def givenOr {α : Type} (given : Option (Option α)) (kept : α) : Option α :=
  match given with
  | none => some kept
  | some v => v

/-- The configuration an edit makes; `none` when a given value is outside its field's set (R163). -/
def editedLine (e : LineEdit) (c : LineConfig) : Option LineConfig :=
  match givenOr e.direction c.direction, givenOr e.pullUp c.pullUp, givenOr e.level c.level, givenOr e.released c.released,
      givenOr e.fn c.fn, givenOr e.edges c.edges, givenOr e.notice c.notice, givenOr e.wake c.wake with
  | some d, some p, some l, some r, some f, some g, some n, some w => some ⟨d, p, l, r, f, g, n, w⟩
  | _, _, _, _, _, _, _, _ => none

/-- A function fits a direction (R163). -/
def LineConfig.fits (c : LineConfig) : Bool :=
  match c.fn with
  | .general => true
  | .sessionLamp | .liveLamp | .endingBlink | .chime => c.direction = .output
  | .occupancy | .muteSwitch | .supplyWarn => c.direction = .input

/-- A line's state under a new configuration: an input whose direction or pull-up changed finds its level afresh (R160). -/
def LineState.reconfigured (old new : LineConfig) (t : LineState) : LineState :=
  if old.direction ≠ new.direction ∨ old.pullUp ≠ new.pullUp then { t with settled := none, run := none } else t

/-- SET-LINE (R163). -/
def execSetLine (r : CmdRef) (line : Option Line) (e : LineEdit) (s : State) : Out :=
  let s := s.taking (.setLine r line e)
  .next (match line with
    | none => s.reply r .badArgument
    | some l => match editedLine e (s.settings.line.get l) with
      | none => s.reply r .badArgument
      | some c =>
        if !c.fits then s.reply r .badArgument
        else
          { s with
            settings := { s.settings with line := s.settings.line.upd l c }
            rln := s.rln.put l ((s.rln.lines.get l).reconfigured (s.settings.line.get l) c) }.tellLevels.reply r .ok)

/-- The lines CLEAR-LINE-FLAGS names: an empty set means all (R164). -/
def namedLines (ls : List Line) : List Line := if ls = [] then allLines else ls

/-- Flags and suppressions cleared (R164). -/
def Rln.cleared (ls : List Line) (r : Rln) : Rln :=
  { r with lines := Tab.gen fun l =>
      if l ∈ ls then { r.lines.get l with flag := false, suppressed := false } else r.lines.get l }

/-- CLEAR-LINE-FLAGS (R164). -/
def execClearLineFlags (r : CmdRef) (lines : Option (List Line)) (s : State) : Out :=
  let s := s.taking (.clearLineFlags r lines)
  .next (match lines with
    | none => s.reply r .badArgument
    | some ls => { s with rln := s.rln.cleared (namedLines ls) }.reply r .ok)

/-- A settled level as a field: HIGH, LOW, unknown. -/
def settledField (o : Option PinLevel) : List Byte :=
  u8 (match o with
    | some l => l.ctorIdx
    | none => 2)

/-- One line of READ-LINES (R165). -/
def lineField (c : LineConfig) (t : LineState) : List Byte :=
  u8 c.direction.ctorIdx ++ flagByte c.pullUp ++ u8 c.level.ctorIdx ++ flagByte c.released ++ u8 c.fn.ctorIdx
    ++ u8 c.edges.ctorIdx ++ flagByte c.notice ++ flagByte c.wake ++ flagByte t.flag ++ flagByte t.suppressed
    ++ (match c.direction with
      | .output => u8 c.level.ctorIdx
      | .input => settledField t.settled)

/-- A combined level as last reported: 01 asserted, 00 not asserted (log 44), FF before the first report (log 18). -/
def toldField (o : Option Bool) : List Byte := optU8 (o.map fun b => if b then 1 else 0)

/-- READ-LINES's payload (R165). -/
def State.linesReport (s : State) : List Byte :=
  allLines.flatMap (fun l => lineField (s.settings.line.get l) (s.rln.lines.get l))
    ++ ([LineFn.sessionLamp, .liveLamp, .endingBlink, .chime].flatMap fun f => flagByte ((s.rln.signal f).getD false))
    ++ toldField s.rln.muteTold ++ toldField s.rln.supplyTold

/-- READ-LINES (R165). -/
def execReadLines (r : CmdRef) (s : State) : Out :=
  let s := s.taking (.readLines r)
  .next (s.reply r .ok s.linesReport)

end Sys2Proof.Machine
end

