-- ==== Sys2Proof/Machine/Scr.lean ====
section
/-! DEFINITION. The Screen Router (chapter 5). -/

namespace Sys2Proof

/-- The screen of a slot. -/
def SlotId.screen : SlotId → Screen
  | .front0 | .front1 => .front
  | .rear0 | .rear1 => .rear

/-- Whether a slot is the slot 1 of its screen. -/
def SlotId.isRight : SlotId → Bool
  | .front0 | .rear0 => false
  | .front1 | .rear1 => true

end Sys2Proof

namespace Sys2Proof.Machine

open Sys2Proof

/-! ## Compositions and nameplates -/

/-- A screen of the room that is blank: QUIET and SLEEP (R94, R107). -/
def isDark (p : Power) : Bool := p = .quiet || p = .sleep

/-- The slots in placement order (R100). -/
def allSlots : List SlotId := [.front0, .front1, .rear0, .rear1]

/-- The slot 0 and the slot 1 of a screen. -/
def leftSlot : Screen → SlotId
  | .front => .front0
  | .rear => .rear0

def rightSlot : Screen → SlotId
  | .front => .front1
  | .rear => .rear1

/-- The entry that holds a slot (R100). -/
def Scr.entryIn (v : Scr) (k : SlotId) : Option ShareEntry := v.shares.find? fun e => e.state.slot = some k

/-- What a slot shows in WAKING and FULL (R94). -/
def Scr.shownIn (v : Scr) (st : Settings) (k : SlotId) : Shown :=
  match st.source.get k with
  | .nothing => .black
  | .roomPc => .roomPc
  | .agenda => .agendaPage
  | .auto => match v.entryIn k with
    | some e => .input e.point
    | none => .agendaPage

/-- A decimal digit's character code. -/
def digit (n : Nat) : Byte := BitVec.ofNat 8 (48 + n % 10)

/-- The caption of a seat without a participant: "Seat" and the seat number (R105). -/
def seatCaption (x : Seat) : Text :=
  [0x53, 0x65, 0x61, 0x74, 0x20] ++ (if x.val < 10 then [digit x.val] else [digit (x.val / 10), digit x.val])

/-- The caption text in force (R105). -/
def State.captionText (s : State) : Option Text :=
  if s.settings.caption && !isDark s.scr.power then
    s.scr.speakers.getLast?.map fun e => match (s.scr.seats.get e.seat).participant with
      | some p => (s.participant (some p)).name
      | none => seatCaption e.seat
  else none

/-- A screen's composition, derived afresh (R94). -/
def State.compositionOf (s : State) (c : Screen) : Composition :=
  let layout := s.settings.layout.get c
  let shown := fun k => if isDark s.scr.power then Shown.black else s.scr.shownIn s.settings k
  { layout := layout, left := shown (leftSlot c)
    right := if layout = .split then some (shown (rightSlot c)) else none
    caption := s.captionText }

/-- The compositions of both screens. -/
def State.compositions (s : State) : PerScreen Composition := ⟨s.compositionOf .front, s.compositionOf .rear⟩

/-- The time shown with SPEAKING (R108). -/
def speakTime (lead : Nat) (remaining : Option Nat) (overtime : Bool) : SpeakTime :=
  match remaining with
  | none => .noTime
  | some r =>
    if overtime then .over
    else if lead ≠ 0 ∧ r ≤ lead then .seconds ((r + 9) / 10 * 10)
    else .minutes ((r + 59) / 60)

/-- The floor mark of a seat (R107). -/
def Scr.floorMark (v : Scr) (x : Seat) : FloorMark :=
  match v.speakers.find? (fun e => e.seat = x) with
  | some e => .speaking (speakTime v.lead e.remaining e.overtime)
  | none => match v.queue.findIdx? (fun q => q = x) with
    | some i => .queued (i + 1)
    | none => .nothing

/-- A seat's nameplate content, derived afresh (R107). -/
def State.plateOf (s : State) (x : Seat) : Plate :=
  if isDark s.scr.power then {}
  else
    let p := s.participant (s.scr.seats.get x).participant
    { name := p.name, note := p.note, role := (s.scr.seats.get x).role, mark := s.scr.floorMark x, ending := s.scr.endingMark }

/-! ## Eligibility and placement -/

/-- The seat is in the held speaker list. -/
def Scr.hears (v : Scr) (x : Seat) : Bool := v.speakers.any fun e => e.seat = x

/-- An entry may be shown (R99). -/
def Scr.allows (v : Scr) (policy : PresenterPolicy) (e : ShareEntry) : Bool :=
  (v.points.get e.point).signal && match policy with
    | .free => true
    | .floor => v.hears e.seat
    | .chair => e.approved

/-- A slot exists in its screen's layout. -/
def slotExists (st : Settings) (k : SlotId) : Bool := !k.isRight || st.layout.get k.screen = .split

/-- A free slot (R100). -/
def Scr.isFree (v : Scr) (st : Settings) (k : SlotId) : Bool :=
  slotExists st k && st.source.get k = .auto && (v.entryIn k).isNone

/-- One placement: the oldest eligible WAITING entry into the first free slot (R100). -/
def Scr.placeOne (st : Settings) (v : Scr) : Scr :=
  match allSlots.find? (v.isFree st), v.shares.find? (fun e => e.state = .waiting && v.allows st.presenter e) with
  | some k, some e =>
    { v with shares := v.shares.map fun d => if d.point = e.point ∧ d.state = .waiting then { d with state := .shown k } else d }
  | _, _ => v

/-- The placement pass: four slots, so at most four placements (R100). -/
def Scr.place (st : Settings) (v : Scr) : Scr := (((v.placeOne st).placeOne st).placeOne st).placeOne st

/-! ## Entries and points -/

/-- The point bound to a seat (R95). -/
def pointOf (st : Settings) (x : Seat) : Option Point := (List.finRange 16).find? fun p => st.binding.get p = some x

/-- A request at the tail (R98). -/
def Scr.request (p : Point) (x : Seat) (v : Scr) : Scr := { v with shares := v.shares ++ [⟨p, x, .waiting, false⟩] }

/-- An entry leaves the list (R98). -/
def Scr.drop (gone : ShareEntry → Bool) (v : Scr) : Scr := { v with shares := v.shares.filter fun e => !gone e }

def Scr.hasEntry (v : Scr) (p : Point) : Bool := v.shares.any fun e => e.point = p

def Scr.putPoint (v : Scr) (p : Point) (t : PointState) : Scr := { v with points := v.points.upd p t }

def Scr.putSeat (v : Scr) (x : Seat) (t : ScrSeat) : Scr := { v with seats := v.seats.upd x t }

/-- A share point becomes NO-SIGNAL: its SHOWN or GRACE entry is removed, its WAITING entry stays (R101). -/
def Scr.loseSignal (p : Point) (v : Scr) : Scr :=
  (v.putPoint p { signal := false, loss := none }).drop fun e => e.point = p && e.state ≠ .waiting

/-- A share-signal report at a point (R96). -/
def PointState.signalled (t : PointState) (present : Bool) : PointState :=
  if present then { signal := true, loss := none }
  else if t.signal && t.loss.isNone then { t with loss := some 2000 }
  else t

/-- An entry after a floor change under FLOOR (R101, R102); `none` is an entry removed because the floor grace is 0. -/
def Scr.graced (v : Scr) (grace : Nat) (e : ShareEntry) : Option ShareEntry :=
  match e.state with
  | .waiting => some e
  | .shown k =>
    if v.hears e.seat then some e
    else if grace = 0 then none
    else some { e with state := .grace k (grace * 1000) }
  | .grace k _ => if v.hears e.seat then some { e with state := .shown k } else some e

/-- The share list after a floor change: under FREE and CHAIR the floor does not touch it (R102). -/
def Scr.takeFloor (st : Settings) (v : Scr) : Scr :=
  match st.presenter with
  | .floor => { v with shares := v.shares.filterMap (v.graced st.floorGrace) }
  | _ => v

/-- An entry judged afresh under a new presenter policy (R104). -/
def Scr.rejudged (v : Scr) (policy : PresenterPolicy) (e : ShareEntry) : ShareEntry :=
  match e.state with
  | .waiting => e
  | .shown _ => if v.allows policy e then e else { e with state := .waiting }
  | .grace k _ => if v.allows policy e then { e with state := .shown k } else { e with state := .waiting }

/-- Entries whose slot no longer exists or is no longer AUTO return to WAITING (R104). -/
def Scr.displaced (st : Settings) (v : Scr) : Scr :=
  { v with shares := v.shares.map fun e => match e.state.slot with
      | some k => if slotExists st k && st.source.get k = .auto then e else { e with state := .waiting }
      | none => e }

/-! ## One screen change (R109) -/

/-- The nameplate changes reported to the table bus. -/
def plateChanges (a b : Scr) : List Instr :=
  allSeats.flatMap fun x => if (a.seats.get x).plate ≠ (b.seats.get x).plate then [.nameplateChange x] else []

/-- Whether a SHARE notice is due: the list, a signal state or a composition changed. -/
def shareNoticeDue (a b : Scr) : Bool :=
  a.shares ≠ b.shares || (List.finRange 16).any (fun p => (a.points.get p).signal ≠ (b.points.get p).signal) || a.screens ≠ b.screens

/-- The answer the Power and Clock Unit is given when it differs from the one last given (R166). -/
def shareEmptyResult (v : Scr) : List Instr :=
  if v.shares.isEmpty ≠ v.emptyTold then [.shareListEmptyReport v.shares.isEmpty] else []

/-- The results of a screen change, in the order of R109's list. -/
def screenResults (cause : ShareCause) (a b : Scr) : List Instr :=
  plateChanges a b ++ shareEmptyResult b ++ (if shareNoticeDue a b then [.notice .share (sharePayload cause b)] else [])

/-- The nameplate contents derived for all seats (R107). -/
def State.derivePlates (s : State) : State :=
  { s with scr := { s.scr with seats := Tab.gen fun x => { s.scr.seats.get x with plate := s.plateOf x } } }

/-- The compositions derived for both screens (R94). -/
def State.deriveScreens (s : State) : State := { s with scr := { s.scr with screens := s.compositions } }

/-- The placement pass over the state's own settings. -/
def State.placeShares (s : State) : State := { s with scr := s.scr.place s.settings }

/-- The Screen Router after an event's own handling: placement, then the compositions, then the nameplates where the event is
one of R107's list. -/
def State.screened (s : State) (plates : Bool) : State :=
  let s1 := s.placeShares.deriveScreens
  if plates then s1.derivePlates else s1

/-- One screen change (R109): the handling of one event took `s0` to `s1`. -/
def State.screenChange (cause : ShareCause) (plates : Bool) (s0 s1 : State) : State :=
  let s2 := s1.screened plates
  { s2 with scr := { s2.scr with emptyTold := s2.scr.shares.isEmpty } }.emit (screenResults cause s0.scr s2.scr)

/-- A screen change whose own handling touches the SCR alone. -/
def State.screenEdit (s : State) (cause : ShareCause) (plates : Bool) (edit : Scr → Scr) : State :=
  State.screenChange cause plates s { s with scr := edit s.scr }

/-! ## Reports -/

/-- A seat's presence at the SCR (R97, R103). A seat that is no longer ONLINE loses its signal, its point's picture and its entries. A
report that crossed the report of SLEEP is taken as any other (log 55). -/
def Scr.takePresence (st : Settings) (x : Seat) (now : Presence) (v : Scr) : Scr :=
  if now = .online then v.putSeat x { v.seats.get x with online := true }
  else
    let v1 := v.putSeat x { v.seats.get x with online := false, signal := false }
    let v2 := match pointOf st x with
      | some p => v1.loseSignal p
      | none => v1
    v2.drop fun e => e.seat = x

/-- PRESENCE_REPORT_AT_SCR (R97). -/
def execPresenceReportAtScr (x : Seat) (now : Presence) (s : State) : Out :=
  let s := s.taking (.presenceReportAtScr x now)
  .next (s.screenEdit .report false (Scr.takePresence s.settings x now))

/-- A held enabled field of the SCR; no removes the seat's entries (R103). -/
def Scr.takeEnabled (x : Seat) (b : Bool) (v : Scr) : Scr :=
  let v1 := v.putSeat x { v.seats.get x with enabled := b }
  if b then v1 else v1.drop fun e => e.seat = x

/-- The held floor replaced by a report (R93, R101): it carries the enabled fields too (R37). -/
def Scr.takeView (st : Settings) (f : FloorView) (v : Scr) : Scr :=
  let v1 := { v with
    speakers := f.speakers, queue := f.queue, lead := f.lead
    seats := Tab.gen fun x =>
      { v.seats.get x with role := f.roles.get x, participant := f.participants.get x, enabled := f.enabled.get x } }
  (v1.takeFloor st).drop fun e => !f.enabled.get e.seat

/-- FLOOR_CHANGE_AT_SCR (R101). -/
def execFloorChangeAtScr (f : FloorView) (s : State) : Out :=
  let s := s.taking (.floorChangeAtScr f)
  .next (s.screenEdit .report true (Scr.takeView s.settings f))

/-- The remaining times of the held speakers (R108). -/
def Scr.takeRemaining (left : List (Seat × Option Nat)) (v : Scr) : Scr :=
  { v with speakers := v.speakers.map fun e => match left.find? (fun p => p.1 = e.seat) with
      | some p => { e with remaining := p.2 }
      | none => e }

/-- SPEECH_REMAINING_REPORT (R108). -/
def execSpeechRemainingReport (left : List (Seat × Option Nat)) (s : State) : Out :=
  .next ((s.taking (.speechRemainingReport left)).screenEdit .report true (Scr.takeRemaining left))

/-- ENABLED_REPORT_AT_SCR (R103). -/
def execEnabledReportAtScr (x : Seat) (b : Bool) (s : State) : Out :=
  .next ((s.taking (.enabledReportAtScr x b)).screenEdit .report false (Scr.takeEnabled x b))

/-- A SHARE key event at a bound point (R98): a request, or the withdrawal of the entry there is. In QUIET and SLEEP the list
stays empty (R103). A press that crossed the report that its seat is disabled or not ONLINE acts all the same, and
so does one that is taken while WAKING is held (log 47). -/
def Scr.toggleShare (st : Settings) (x : Seat) (v : Scr) : Scr :=
  match pointOf st x with
  | none => v
  | some p =>
    if v.hasEntry p then v.drop fun e => e.point = p
    else if isDark v.power then v
    else v.request p x

/-- SHARE_KEY_EVENT (R98). -/
def execShareKeyEvent (x : Seat) (s : State) : Out :=
  let s := s.taking (.shareKeyEvent x)
  .next (s.screenEdit .keyEvent false (Scr.toggleShare s.settings x))

/-- A share-signal report (R95, R96). One that crossed the report of SLEEP is taken as any other (log 55). -/
def Scr.takeSignal (st : Settings) (x : Seat) (present : Bool) (v : Scr) : Scr :=
  let v1 := v.putSeat x { v.seats.get x with signal := present }
  match pointOf st x with
  | some p => v1.putPoint p ((v1.points.get p).signalled present)
  | none => v1

/-- SHARE_SIGNAL_REPORT (R96). -/
def execShareSignalReport (x : Seat) (present : Bool) (s : State) : Out :=
  let s := s.taking (.shareSignalReport x present)
  .next (s.screenEdit .report false (Scr.takeSignal s.settings x present))

/-- LOSS_TIMER_EXPIRY (R96): the expiry of a stopped timer is no event, and with the audio crystal stopped the timer stands
still (R173). -/
def execLossTimerExpiry (p : Point) (s : State) : Out :=
  .next (if s.pcu.audio = .running ∧ (s.scr.points.get p).loss.isSome then s.screenEdit .lossExpiry false (Scr.loseSignal p) else s)

/-- An entry whose grace runs. -/
def ShareEntry.inGrace (e : ShareEntry) : Bool :=
  match e.state with
  | .grace _ _ => true
  | _ => false

/-- FLOOR_GRACE_EXPIRY (R102): the point's entry, when it is in GRACE; with the audio crystal stopped the grace stands still
(R173). -/
def execFloorGraceExpiry (p : Point) (s : State) : Out :=
  .next (if s.pcu.audio = .running ∧ s.scr.shares.any (fun e => e.point = p && e.inGrace) then
      s.screenEdit .graceExpiry false (Scr.drop fun e => e.point = p && e.inGrace)
    else s)

/-- What the agenda page says of the next booking. -/
def nextEntry (n : AgendaNext) : PageEntry := .next n.title n.start n.stop

/-- What the agenda page reads (R106): the current booking and then the next; without a current one "available until" the next
start, and the next booking; with neither, "available". -/
def pageOf (a : Agenda) (organiser : Text) : List PageEntry :=
  match a.current, a.next with
  | some c, n => .current c.title organiser c.start c.stop :: n.toList.map nextEntry
  | none, some n => [.availableUntil n.start, nextEntry n]
  | none, none => [.available]

/-- The name of an agenda's organiser as the participant table gives it at the moment, blank without one (R106). -/
def State.organiserOf (s : State) (a : Agenda) : Text := (s.participant (a.current.bind (·.organiser))).name

/-- The agenda content replaced, with the organiser's name of the moment and the page it makes (R106). -/
def State.takeAgenda (s : State) (a : Agenda) : State :=
  { s with scr := { s.scr with agenda := a, organiserName := s.organiserOf a, page := pageOf a (s.organiserOf a) } }

/-- ACTIVATION_AT_SCR (R103): an activation or an ending empties the share list and carries the agenda of the moment. The word of an
ending clears the held ending mark (R150), and the nameplates follow a change of it (R107). -/
def execActivationAtScr (isEnding : Bool) (a : Agenda) (s : State) : Out :=
  let s := s.taking (.activationAtScr isEnding a)
  .next (State.screenChange .report (isEnding && s.scr.endingMark) s
    ({ s with scr := { s.scr with shares := [], endingMark := !isEnding && s.scr.endingMark } }.takeAgenda a))

/-- DROPPED_SEATS_REPORT (R103). -/
def execDroppedSeatsReport (seats : List Seat) (s : State) : Out :=
  .next ((s.taking (.droppedSeatsReport seats)).screenEdit .report false (Scr.drop fun e => seats.contains e.seat))

/-- AGENDA_REPORT (R106). -/
def execAgendaReport (a : Agenda) (s : State) : Out :=
  let s := s.taking (.agendaReport a)
  .next (State.screenChange .report false s (s.takeAgenda a))

/-- ENDING_MARK_REPORT (R107, R148). -/
def execEndingMarkReport (mark : Bool) (s : State) : Out :=
  .next ((s.taking (.endingMarkReport mark)).screenEdit .report true fun v => { v with endingMark := mark })

/-- PARTICIPANT_EDIT_REPORT (R124): the organiser's name is taken afresh when the organiser is that participant (R106). -/
def execParticipantEditReport (p : PIdx) (s : State) : Out :=
  let s := s.taking (.participantEditReport p)
  let organised := s.scr.agenda.current.bind (·.organiser) = some p
  .next (State.screenChange .report true s (if organised then s.takeAgenda s.scr.agenda else s))

/-- A report of the power state at the SCR (R97, R103): QUIET and SLEEP empty the list; SLEEP takes every signal and leaves no
seat ONLINE (log 8). -/
def Scr.takePower (p : Power) (v : Scr) : Scr :=
  let v1 := { v with power := p }
  match p with
  | .quiet => { v1 with shares := [] }
  | .sleep =>
    { v1 with
      shares := [], points := Tab.all 16 {}
      seats := Tab.gen fun x => { v1.seats.get x with signal := false, online := false } }
  | _ => v1

/-! ## Commands (section 5.8) -/

/-- A screen command that sets a setting, with what it does to the list under the new settings, and answers OK; a value already in
force changes nothing (R110). -/
def State.screenSet (s : State) (r : CmdRef) (set : Settings → Settings) (edit : Settings → Scr → Scr) : State :=
  if set s.settings = s.settings then s.reply r .ok
  else (State.screenChange .command false s
    { s with settings := set s.settings, scr := edit (set s.settings) s.scr }).reply r .ok

/-- SET-LAYOUT (R111). -/
def execSetLayout (r : CmdRef) (screen : Option Screen) (layout : Option Layout) (s : State) : Out :=
  .next ((s.taking (.setLayout r screen layout)).whenFull r fun s => match screen, layout with
    | some c, some l => s.screenSet r (fun st => { st with layout := st.layout.upd c l }) Scr.displaced
    | _, _ => s.reply r .badArgument)

/-- SET-SLOT (R111). -/
def execSetSlot (r : CmdRef) (slot : Option SlotId) (source : Option Source) (s : State) : Out :=
  .next ((s.taking (.setSlot r slot source)).whenFull r fun s => match slot, source with
    | some k, some c => s.screenSet r (fun st => { st with source := st.source.upd k c }) Scr.displaced
    | _, _ => s.reply r .badArgument)

/-- SET-CAPTION (R112). -/
def execSetCaption (r : CmdRef) (on : Option Bool) (s : State) : Out :=
  .next ((s.taking (.setCaption r on)).whenFull r fun s => match on with
    | some b => s.screenSet r (fun st => { st with caption := b }) fun _ v => v
    | none => s.reply r .badArgument)

/-- SET-PRESENTER-POLICY (R112, R104). -/
def execSetPresenterPolicy (r : CmdRef) (policy : Option PresenterPolicy) (s : State) : Out :=
  .next ((s.taking (.setPresenterPolicy r policy)).whenFull r fun s => match policy with
    | some p => s.screenSet r (fun st => { st with presenter := p })
        fun _ v => { v with shares := v.shares.map (v.rejudged p) }
    | none => s.reply r .badArgument)

/-- SET-FLOOR-GRACE (R112). -/
def execSetFloorGrace (r : CmdRef) (seconds : NumArg) (s : State) : Out :=
  .next ((s.taking (.setFloorGrace r seconds)).whenFull r fun s => s.setNumber r 0 60 seconds i16
    fun n s => { s with settings := { s.settings with floorGrace := n.toNat } })

/-- What SHARE-START's completion carries: the entry's state, and its slot or FF (R113). -/
def Scr.placedField (v : Scr) (p : Point) : List Byte :=
  match v.shares.find? (fun e => e.point = p) with
  | some e => u8 e.state.code ++ optU8 (e.state.slot.map (·.ctorIdx))
  | none => []

/-- SHARE-START at a point, the cases of R113 in order. -/
def State.startShare (s : State) (r : CmdRef) (p : Point) : State :=
  match s.settings.binding.get p with
  | none => s.reply r .notFound
  | some x =>
    if !((s.scr.seats.get x).enabled && (s.scr.seats.get x).online) then s.reply r .notFound
    else if s.scr.hasEntry p then s.reply r .conflict
    else
      let s1 := s.screenEdit .command false (Scr.request p x)
      s1.reply r .ok (s1.scr.placedField p)

/-- SHARE-START (R113). -/
def execShareStart (r : CmdRef) (point : Option Point) (s : State) : Out :=
  .next ((s.taking (.shareStart r point)).whenFull r fun s => match point with
    | some p => s.startShare r p
    | none => s.reply r .badArgument)

/-- SHARE-STOP (R113). -/
def execShareStop (r : CmdRef) (point : Option Point) (s : State) : Out :=
  .next ((s.taking (.shareStop r point)).whenFull r fun s => match point with
    | some p =>
      if s.scr.hasEntry p then (s.screenEdit .command false (Scr.drop fun e => e.point = p)).reply r .ok
      else s.reply r .notFound
    | none => s.reply r .badArgument)

/-- An approval set or withdrawn (R113): under CHAIR a SHOWN entry whose approval goes returns to WAITING (R101). -/
def Scr.approve (policy : PresenterPolicy) (p : Point) (yes : Bool) (v : Scr) : Scr :=
  { v with shares := v.shares.map fun e =>
      if e.point = p then
        { e with
          approved := yes
          state := if policy = .chair && !yes then (match e.state with
            | .shown _ => .waiting
            | t => t) else e.state }
      else e }

/-- APPROVE-SHARE (R113). It answers OK with no payload, also where the approval places the entry (log 45). -/
def execApproveShare (r : CmdRef) (point : Option Point) (yes : Option Bool) (s : State) : Out :=
  .next ((s.taking (.approveShare r point yes)).whenFull r fun s => match point, yes with
    | some p, some b =>
      if s.scr.hasEntry p then (s.screenEdit .command false (Scr.approve s.settings.presenter p b)).reply r .ok
      else s.reply r .notFound
    | _, _ => s.reply r .badArgument)

/-- A point bound afresh: its entry removed, its timer stopped, its signal taken from the new seat (R114). -/
def Scr.rebind (p : Point) (seat : Option Seat) (v : Scr) : Scr :=
  (v.drop fun e => e.point = p).putPoint p
    { signal := match seat with
        | some x => (v.seats.get x).signal
        | none => false
      loss := none }

/-- BIND-SHARE-POINT to a seat or to NONE (R114). -/
def State.bindPoint (s : State) (r : CmdRef) (p : Point) (seat : Option Seat) : State :=
  if s.settings.binding.get p = seat then s.reply r .ok
  else if seat.isSome && (List.finRange 16).any (fun q => q ≠ p && s.settings.binding.get q = seat) then s.reply r .conflict
  else s.screenSet r (fun st => { st with binding := st.binding.upd p seat }) fun _ => Scr.rebind p seat

/-- BIND-SHARE-POINT (R114). -/
def execBindSharePoint (r : CmdRef) (point : Option Point) (seat : BindArg) (s : State) : Out :=
  let s := s.taking (.bindSharePoint r point seat)
  .next (match point, seat with
    | some p, .unbind => s.bindPoint r p none
    | some p, .to (some x) => s.bindPoint r p (some x)
    | _, _ => s.reply r .badArgument)

/-! ## READ-SCREENS -/

/-- One screen in READ-SCREENS. -/
def screenField (st : Settings) (c : Screen) (k : Composition) : List Byte :=
  u8 (st.layout.get c).ctorIdx ++ u8 (st.source.get (leftSlot c)).ctorIdx ++ u8 (st.source.get (rightSlot c)).ctorIdx
    ++ compositionField k

/-- One share point in READ-SCREENS (R115): binding, signal state, and the loss timer's remaining time or FFFF. -/
def pointField (st : Settings) (p : Point) (t : PointState) : List Byte :=
  optSeat (st.binding.get p) ++ u8 (if t.signal then 1 else 0) ++ optU16 t.loss

/-- The grace remaining of an entry. -/
def ShareState.left : ShareState → Option Nat
  | .grace _ n => some n
  | _ => none

/-- The agenda content (R106): each part behind a byte that says whether it is there (log 18). -/
def Scr.agendaField (v : Scr) : List Byte :=
  (match v.agenda.current with
    | some c => flagByte true ++ textField c.title ++ textField v.organiserName ++ dayMinuteField c.start ++ dayMinuteField c.stop
    | none => flagByte false)
  ++ (match v.agenda.next with
    | some n => flagByte true ++ textField n.title ++ dayMinuteField n.start ++ dayMinuteField n.stop
    | none => flagByte false)

/-- The role mark of a nameplate: R107 lists CHAIR and VICE, and a mark that is none is FF (R189, log 44). -/
def roleMarkField : Role → List Byte
  | .chair => u8 0
  | .vice => u8 1
  | .ordinary => optU8 none

/-- The floor mark of a nameplate: SPEAKING 00 with its time, QUEUED 01 with its position in one byte, and none FF (R107, R189).
How the time is written is open (log 7). -/
def floorMarkField : FloorMark → List Byte
  | .speaking time => u8 0 ++ Config.speakTimeBytes time
  | .queued position => u8 1 ++ u8 position
  | .nothing => optU8 none

/-- One nameplate in READ-SCREENS (R107, R115). -/
def plateField (p : Plate) : List Byte :=
  textField p.name ++ textField p.note ++ roleMarkField p.role ++ floorMarkField p.mark ++ flagByte p.ending

/-- READ-SCREENS's payload, in the order of R115. No caption is an empty caption text (log 44), and the points and nameplates have no
count byte (log 34). -/
def State.screensReport (s : State) (first count : Nat) : List Byte :=
  screenField s.settings .front s.scr.screens.front ++ screenField s.settings .rear s.scr.screens.rear
    ++ flagByte s.settings.caption ++ textField (s.scr.screens.front.caption.getD [])
    ++ u8 s.settings.presenter.ctorIdx ++ u16 s.settings.floorGrace
    ++ (List.finRange 16).flatMap (fun p => pointField s.settings p (s.scr.points.get p))
    ++ listField (fun e : ShareEntry => shareEntryField e ++ optU16 e.state.left) s.scr.shares
    ++ s.scr.agendaField
    ++ (runOf 64 first count).flatMap (fun x => plateField (s.scr.seats.get x).plate)

/-- READ-SCREENS (R115). -/
def execReadScreens (r : CmdRef) (first count : Nat) (s : State) : Out :=
  let s := s.taking (.readScreens r first count)
  .next (if runIsBad first count 0 64 then s.reply r .badArgument else s.reply r .ok (s.screensReport first count))

end Sys2Proof.Machine
end

