-- ==== Sys2Proof/Machine/Pcu.lean ====
section
/-! DEFINITION. The Power and Clock Unit (chapter 9): timers, waking, crystals, commands, and the start-up sequence. -/

namespace Sys2Proof.Machine

open Sys2Proof

/-! ## Timers and phases -/

/-- IDLE_TIMER_EXPIRY (R167): a stopped timer does not expire. -/
def execIdleTimerExpiry (s : State) : Out := .next (if s.pcu.idle.isSome then s.enterQuiet .idle else s)

/-- SLEEP_TIMER_EXPIRY (R169). -/
def execSleepTimerExpiry (s : State) : Out := .next (if s.pcu.sleep.isSome then s.enterSleep .sleepDelay else s)

/-- A change of the settle phase: held and reported to the blocks (R171). -/
def State.setPhase (s : State) (phase : Phase) : State :=
  { s with pcu := { s.pcu with phase := some phase } }.tellPower .waking (some phase)

/-- POWER_SETTLE_END (R171): 100 ms have passed and the audio crystal is RUNNING. -/
def execPowerSettleEnd (s : State) : Out :=
  .next (if s.pcu.phase = some .powerSettle ∧ s.pcu.audio = .running then s.setPhase .enumeration else s)

/-- ENUMERATION_END (R171). -/
def execEnumerationEnd (s : State) : Out := .next (if s.pcu.phase = some .enumeration then s.enterFull else s)

/-! ## Crystals (R173) -/

/-- ROOM_CRYSTAL_STOPPED (R173, R136): the latch is marked and the clock loses its time. -/
def execRoomCrystalStopped (s : State) : Out :=
  .next (if s.pcu.room = .stopped then s
    else { s with pcu := { s.pcu with room := .stopped, stopLatch := true } }.loseClock)

/-- ROOM_CRYSTAL_RUNNING (R173): a LOST clock stays LOST (R136). -/
def execRoomCrystalRunning (s : State) : Out := .next { s with pcu := { s.pcu with room := .running } }

/-- The POWER notice of the audio crystal: the state, unchanged, the cause and the crystal's state (R173). -/
def audioPayload (p : Option Power) (a : AudioCrystal) : List Byte := powerPayload p p .audioClock ++ u8 a.ctorIdx

/-- A power state in which the audio crystal is meant to run (R173). -/
def wantsAudio (p : Option Power) : Bool := p = some .full || p = some .waking || p = some .quiet

/-- AUDIO_CRYSTAL_STOPPED (R173): the engine is silent, and a notice goes out where the crystal was meant to run. -/
def execAudioCrystalStopped (s : State) : Out :=
  .next (if s.pcu.audio = .stopped then s
    else
      { s with pcu := { s.pcu with audio := .stopped } }.audioStill.emit
        (if wantsAudio s.pcu.power then [.notice .power (audioPayload s.pcu.power .stopped)] else []))

/-- Both branches at address 0, with no cycle completed (R171, R173). -/
def Tbc.restarted (t : Tbc) : Tbc := { t with nextLeft := 0, nextRight := 0, passLeft := false, passRight := false }

/-- AUDIO_CRYSTAL_RUNNING (R173): polling goes on from address 0. In SLEEP the crystal is not driven. -/
def execAudioCrystalRunning (s : State) : Out :=
  .next (if s.pcu.audio = .running ∨ s.pcu.power = some .sleep then s
    else { s with pcu := { s.pcu with audio := .running }, tbc := s.tbc.restarted })

/-! ## Reports -/

/-- WAKE_REQUEST (R171). -/
def execWakeRequest (cause : PowerCause) (s : State) : Out := .next ((s.taking (.wakeRequest cause)).wakeUp cause)

/-- BOOKING_CURRENT_REPORT (R166): yes is a wake source in QUIET and SLEEP. -/
def execBookingCurrentReport (b : Bool) (s : State) : Out :=
  let s := s.taking (.bookingCurrentReport b)
  let s1 := { s with pcu := { s.pcu with bookingCurrent := b } }.refreshIdle s.pcu.unused
  .next (if b then s1.wakeUp .booking else s1)

/-- FLOOR_EMPTY_REPORT (R166). -/
def execFloorEmptyReport (b : Bool) (s : State) : Out :=
  let s := s.taking (.floorEmptyReport b)
  .next ({ s with pcu := { s.pcu with floorEmpty := b } }.refreshIdle s.pcu.unused)

/-- SHARE_LIST_EMPTY_REPORT (R166). -/
def execShareListEmptyReport (b : Bool) (s : State) : Out :=
  let s := s.taking (.shareListEmptyReport b)
  .next ({ s with pcu := { s.pcu with shareEmpty := b } }.refreshIdle s.pcu.unused)

/-- A block takes the power state under its own rules (R168, R171). -/
def State.blockTakesPower (s : State) (b : BlockId) (p : Power) (phase : Option Phase) : State :=
  match b with
  | .tbc => { s with tbc := s.tbc.takePower p phase }
  | .flc => s.floorEdit .report (Flc.takePower · p)
  | .mix => { s with mix := s.mix.takePower p phase }
  | .vdt => { s with vdt := s.vdt.takePower p }
  | .scr => s.screenEdit .report true (Scr.takePower p)
  | .rln => { s with rln := s.rln.takePower p }

/-- POWER_STATE_REPORT (R168, R171). -/
def execPowerStateReport (b : BlockId) (p : Power) (phase : Option Phase) (s : State) : Out :=
  .next ((s.taking (.powerStateReport b p phase)).blockTakesPower b p phase)

/-! ## Commands -/

/-- QUIET by power state (R170). -/
def execQuiet (r : CmdRef) (s : State) : Out :=
  let s := s.taking (.quiet r)
  .next (match s.pcu.power with
    | some .full => if s.meetingRuns then s.reply r .state else (s.enterQuiet .command).reply r .ok
    | some .quiet | some .sleep => s.reply r .ok
    | some .waking | none => s.reply r .state)

/-- SLEEP by power state (R170). The POWER notice of the entry to SLEEP carries the cause COMMAND (log 41). -/
def execSleep (r : CmdRef) (s : State) : Out :=
  let s := s.taking (.sleep r)
  .next (match s.pcu.power with
    | some .full => if s.meetingRuns then s.reply r .state else ((s.enterQuiet .command).enterSleep .command).reply r .ok
    | some .quiet => if s.meetingRuns then s.reply r .state else (s.enterSleep .command).reply r .ok
    | some .sleep => s.reply r .ok
    | some .waking | none => s.reply r .state)

/-- WAKE (R172). -/
def execWake (r : CmdRef) (s : State) : Out := .next ((s.taking (.wake r)).whenFull r fun s => s.reply r .ok)

/-- SET-IDLE-TIME (R176): the command is itself a restart. -/
def execSetIdleTime (r : CmdRef) (v : NumArg) (s : State) : Out :=
  .next ((s.taking (.setIdleTime r v)).setNumber r 0 120 v i16
    fun n s => { s with settings := { s.settings with idleTime := n.toNat } }.restartIdle)

/-- A new sleep delay: in QUIET the sleep timer starts afresh (R176). -/
def State.withSleepDelay (s : State) (minutes : Nat) : State :=
  let s1 := { s with settings := { s.settings with sleepDelay := minutes } }
  if s.pcu.power = some .quiet then { s1 with pcu := { s1.pcu with sleep := sleepStarted minutes } } else s1

/-- SET-SLEEP-DELAY (R176). -/
def execSetSleepDelay (r : CmdRef) (v : NumArg) (s : State) : Out :=
  .next ((s.taking (.setSleepDelay r v)).setNumber r 0 240 v i16 fun n s => s.withSleepDelay n.toNat)

/-- SET-START-STATE (R176). -/
def execSetStartState (r : CmdRef) (st : Option StartState) (s : State) : Out :=
  let s := s.taking (.setStartState r st)
  .next (match st with
    | some v => { s with settings := { s.settings with startState := v } }.reply r .ok
    | none => s.reply r .badArgument)

/-! ## The start-up sequence (R174) -/

/-- The cause in the start record: a POWER takes precedence over a SUPPLY (R175). -/
def resetCause : ResetDetectors → ResetCause
  | .power | .powerAndSupply => .power
  | .supply => .supply
  | .pin => .pin

/-- The room crystal ran throughout the reset (R174 step 4). -/
def ranThroughout (d : ResetDetectors) (latch roomRuns : Bool) : Bool := resetCause d = .pin && !latch && roomRuns

/-- The clock at step 4 (R136, R174): kept, or UNSET at day 0, second 0; the check-in memory is empty. -/
def Msc.atStart (kept : Bool) (m : Msc) : Msc := if kept then { clock := m.clock, day := m.day, second := m.second } else {}

/-- The start record (R175). -/
def State.startRecord (s : State) (d : ResetDetectors) : StartRecord :=
  { cause := resetCause d
    wasAsleep := resetCause d = .pin && s.pcu.keptPower = some .sleep
    torn := s.bks.tornCount }

/-- The Power and Clock Unit after step 1 and step 2 (R173, R174). -/
def State.pcuAtStart (s : State) (d : ResetDetectors) (roomRuns : Bool) : Pcu :=
  { room := if roomRuns then .running else .stopped, audio := .settling, start := s.startRecord d }

/-- The part after steps 1 to 3 (R174): every block as its chapter gives it after a reset, under the settings the scan found. -/
def State.loaded (s : State) (d : ResetDetectors) (roomRuns : Bool) : State :=
  let b := s.bks.scan
  let st := b.saveImage
  { settings := st
    tbc := {}
    flc := { mode := st.defaultMode, limit := st.defaultLimit }
    mix := { seats := Tab.all 64 { level := multiplier (.code st.speakerLevel) }, radius := st.exclusion }
    vdt := {}
    scr := { lead := st.warningLead }
    bks := b
    msc := s.msc.atStart (ranThroughout d s.pcu.stopLatch roomRuns)
    rln := {}
    pcu := s.pcuAtStart d roomRuns
    cph := { nextTag := s.cph.nextTag }
    flight := []
    pending := s.pending }

/-- Steps 3 and 4: the lines' first reports, the screens as they stand, and a stopped crystal reported (R157, R174). -/
def State.clocked (s : State) (roomRuns : Bool) : State :=
  let s1 := s.deriveScreens.tellLevels
  if roomRuns then s1 else s1.loseClock

/-- Step 5: the start evaluation, and the booking-current fact that step 6 reads (R174). -/
def State.scheduled (s : State) : State :=
  let s1 := s.startEvaluation
  { s1 with pcu := { s1.pcu with bookingCurrent := s1.currentSlot.isSome } }

/-- Step 6: the start state (R174). -/
def State.started (s : State) : State :=
  if s.settings.startState = .quiet ∧ s.pcu.bookingCurrent = false then s.enterQuiet .start
  else s.setPower .waking (some .powerSettle) .start

/-- RESET (R174): the whole start-up sequence. -/
def execReset (d : ResetDetectors) (roomRuns : Bool) (s : State) : Out :=
  .next (((s.loaded d roomRuns).clocked roomRuns).scheduled).started

end Sys2Proof.Machine
end

