-- ==== Sys2Proof/Machine/Dispatch.lean ====
section
/-! DEFINITION. One arm per command of the table, each one call of its meaning. -/

namespace Sys2Proof.Machine

open Sys2Proof

def exec (i : Instr) (s : State) : Host.Outcome State Fault Refusal :=
  match i with
  | .reset detectors roomRuns => Sys2Proof.Machine.execReset detectors roomRuns s
  | .poll branch => Sys2Proof.Machine.execPoll branch s
  | .acceptedAnswer seat answer => Sys2Proof.Machine.execAcceptedAnswer seat answer s
  | .missedAnswer seat => Sys2Proof.Machine.execMissedAnswer seat s
  | .samplePeriod mics remote => Sys2Proof.Machine.execSamplePeriod mics remote s
  | .rampTick => Sys2Proof.Machine.execRampTick s
  | .block => Sys2Proof.Machine.execBlock s
  | .secondEvent => Sys2Proof.Machine.execSecondEvent s
  | .noShowDeadline => Sys2Proof.Machine.execNoShowDeadline s
  | .graceDeadline => Sys2Proof.Machine.execGraceDeadline s
  | .speechTimerExpiry => Sys2Proof.Machine.execSpeechTimerExpiry s
  | .refusalFlashExpiry seat => Sys2Proof.Machine.execRefusalFlashExpiry seat s
  | .lossTimerExpiry point => Sys2Proof.Machine.execLossTimerExpiry point s
  | .floorGraceExpiry point => Sys2Proof.Machine.execFloorGraceExpiry point s
  | .idleTimerExpiry => Sys2Proof.Machine.execIdleTimerExpiry s
  | .sleepTimerExpiry => Sys2Proof.Machine.execSleepTimerExpiry s
  | .presenceTimerExpiry port => Sys2Proof.Machine.execPresenceTimerExpiry port s
  | .chimePulseEnd => Sys2Proof.Machine.execChimePulseEnd s
  | .endingBlinkPhase => Sys2Proof.Machine.execEndingBlinkPhase s
  | .lineSample levels => Sys2Proof.Machine.execLineSample levels s
  | .storeWriteEnd => Sys2Proof.Machine.execStoreWriteEnd s
  | .roomCrystalStopped => Sys2Proof.Machine.execRoomCrystalStopped s
  | .roomCrystalRunning => Sys2Proof.Machine.execRoomCrystalRunning s
  | .audioCrystalStopped => Sys2Proof.Machine.execAudioCrystalStopped s
  | .audioCrystalRunning => Sys2Proof.Machine.execAudioCrystalRunning s
  | .powerSettleEnd => Sys2Proof.Machine.execPowerSettleEnd s
  | .enumerationEnd => Sys2Proof.Machine.execEnumerationEnd s
  | .keyEvent seat key edge mode => Sys2Proof.Machine.execKeyEvent seat key edge mode s
  | .voiceOnset seat => Sys2Proof.Machine.execVoiceOnset seat s
  | .voiceEnd seat => Sys2Proof.Machine.execVoiceEnd seat s
  | .presenceReportAtFlc seat was now => Sys2Proof.Machine.execPresenceReportAtFlc seat was now s
  | .presenceReportAtMix seat now => Sys2Proof.Machine.execPresenceReportAtMix seat now s
  | .presenceReportAtVdt seat now => Sys2Proof.Machine.execPresenceReportAtVdt seat now s
  | .presenceReportAtScr seat now => Sys2Proof.Machine.execPresenceReportAtScr seat now s
  | .floorChangeAtMix view => Sys2Proof.Machine.execFloorChangeAtMix view s
  | .floorChangeAtScr view => Sys2Proof.Machine.execFloorChangeAtScr view s
  | .speechRemainingReport left => Sys2Proof.Machine.execSpeechRemainingReport left s
  | .eligibilityReport seat eligible => Sys2Proof.Machine.execEligibilityReport seat eligible s
  | .enabledReportAtTbc seat enabled => Sys2Proof.Machine.execEnabledReportAtTbc seat enabled s
  | .enabledReportAtScr seat enabled => Sys2Proof.Machine.execEnabledReportAtScr seat enabled s
  | .ringChange seat => Sys2Proof.Machine.execRingChange seat s
  | .nameplateChange seat => Sys2Proof.Machine.execNameplateChange seat s
  | .shareKeyEvent seat => Sys2Proof.Machine.execShareKeyEvent seat s
  | .shareSignalReport seat present => Sys2Proof.Machine.execShareSignalReport seat present s
  | .muteSwitchAtMix asserted => Sys2Proof.Machine.execMuteSwitchAtMix asserted s
  | .muteSwitchAtFlc asserted => Sys2Proof.Machine.execMuteSwitchAtFlc asserted s
  | .supplyWarningReport asserted => Sys2Proof.Machine.execSupplyWarningReport asserted s
  | .micFlagReport seat => Sys2Proof.Machine.execMicFlagReport seat s
  | .occupancyEdge line edge => Sys2Proof.Machine.execOccupancyEdge line edge s
  | .wakeRequest cause => Sys2Proof.Machine.execWakeRequest cause s
  | .bookingCurrentReport current => Sys2Proof.Machine.execBookingCurrentReport current s
  | .floorEmptyReport empty => Sys2Proof.Machine.execFloorEmptyReport empty s
  | .shareListEmptyReport empty => Sys2Proof.Machine.execShareListEmptyReport empty s
  | .activationReport activation => Sys2Proof.Machine.execActivationReport activation s
  | .endingReport policy seating => Sys2Proof.Machine.execEndingReport policy seating s
  | .attendeeEditReport plan policy => Sys2Proof.Machine.execAttendeeEditReport plan policy s
  | .seatingReport seating inMeeting => Sys2Proof.Machine.execSeatingReport seating inMeeting s
  | .participantDeletionReport index => Sys2Proof.Machine.execParticipantDeletionReport index s
  | .keyFlagClearing micOnly => Sys2Proof.Machine.execKeyFlagClearing micOnly s
  | .activationAtScr isEnding agenda => Sys2Proof.Machine.execActivationAtScr isEnding agenda s
  | .droppedSeatsReport seats => Sys2Proof.Machine.execDroppedSeatsReport seats s
  | .agendaReport agenda => Sys2Proof.Machine.execAgendaReport agenda s
  | .endingMarkReport mark => Sys2Proof.Machine.execEndingMarkReport mark s
  | .participantEditReport index => Sys2Proof.Machine.execParticipantEditReport index s
  | .sessionLampReport on => Sys2Proof.Machine.execSessionLampReport on s
  | .liveLampReport empty => Sys2Proof.Machine.execLiveLampReport empty s
  | .endingBlinkReport start => Sys2Proof.Machine.execEndingBlinkReport start s
  | .chimeRequest => Sys2Proof.Machine.execChimeRequest s
  | .powerStateReport block power phase => Sys2Proof.Machine.execPowerStateReport block power phase s
  | .bookingReport report => Sys2Proof.Machine.execBookingReport report s
  | .notice kind payload => Sys2Proof.Machine.execNotice kind payload s
  | .blockResult ref result payload => Sys2Proof.Machine.execBlockResult ref result payload s
  | .post port frame => Sys2Proof.Machine.execPost port frame s
  | .fetch port frame => Sys2Proof.Machine.execFetch port frame s
  | .portReset port frame => Sys2Proof.Machine.execPortReset port frame s
  | .setKeyMode ref seat mode => Sys2Proof.Machine.execSetKeyMode ref seat mode s
  | .setDebounce ref polls => Sys2Proof.Machine.execSetDebounce ref polls s
  | .readSeat ref first count => Sys2Proof.Machine.execReadSeat ref first count s
  | .clearKeyFlags ref seat keys => Sys2Proof.Machine.execClearKeyFlags ref seat keys s
  | .grant ref seat => Sys2Proof.Machine.execGrant ref seat s
  | .grantNext ref => Sys2Proof.Machine.execGrantNext ref s
  | .addRequest ref seat => Sys2Proof.Machine.execAddRequest ref seat s
  | .close ref seat => Sys2Proof.Machine.execClose ref seat s
  | .closeSpeakers ref => Sys2Proof.Machine.execCloseSpeakers ref s
  | .clearQueue ref => Sys2Proof.Machine.execClearQueue ref s
  | .setFloorMode ref mode scope => Sys2Proof.Machine.execSetFloorMode ref mode scope s
  | .setOpenLimit ref limit scope => Sys2Proof.Machine.execSetOpenLimit ref limit scope s
  | .setOverflow ref policy => Sys2Proof.Machine.execSetOverflow ref policy s
  | .setPriorityPolicy ref policy => Sys2Proof.Machine.execSetPriorityPolicy ref policy s
  | .setSpeechLimit ref limit lead action => Sys2Proof.Machine.execSetSpeechLimit ref limit lead action s
  | .enableSeat ref seat enabled => Sys2Proof.Machine.execEnableSeat ref seat enabled s
  | .setRole ref seat role participant => Sys2Proof.Machine.execSetRole ref seat role participant s
  | .readFloor ref => Sys2Proof.Machine.execReadFloor ref s
  | .setMaster ref value => Sys2Proof.Machine.execSetMaster ref value s
  | .setTrim ref seat value => Sys2Proof.Machine.execSetTrim ref seat value s
  | .setSpeakerLevel ref value => Sys2Proof.Machine.execSetSpeakerLevel ref value s
  | .setSelfDuck ref value => Sys2Proof.Machine.execSetSelfDuck ref value s
  | .setDuck ref value => Sys2Proof.Machine.execSetDuck ref value s
  | .setNom ref on => Sys2Proof.Machine.execSetNom ref on s
  | .setExclusion ref value => Sys2Proof.Machine.execSetExclusion ref value s
  | .setRemoteGain ref gain => Sys2Proof.Machine.execSetRemoteGain ref gain s
  | .readMeters ref first count => Sys2Proof.Machine.execReadMeters ref first count s
  | .setVoiceThreshold ref value => Sys2Proof.Machine.execSetVoiceThreshold ref value s
  | .setVoiceOnset ref value => Sys2Proof.Machine.execSetVoiceOnset ref value s
  | .setVoiceHold ref value => Sys2Proof.Machine.execSetVoiceHold ref value s
  | .setLayout ref screen layout => Sys2Proof.Machine.execSetLayout ref screen layout s
  | .setSlot ref slot source => Sys2Proof.Machine.execSetSlot ref slot source s
  | .setCaption ref on => Sys2Proof.Machine.execSetCaption ref on s
  | .setPresenterPolicy ref policy => Sys2Proof.Machine.execSetPresenterPolicy ref policy s
  | .setFloorGrace ref seconds => Sys2Proof.Machine.execSetFloorGrace ref seconds s
  | .shareStart ref point => Sys2Proof.Machine.execShareStart ref point s
  | .shareStop ref point => Sys2Proof.Machine.execShareStop ref point s
  | .approveShare ref point yes => Sys2Proof.Machine.execApproveShare ref point yes s
  | .bindSharePoint ref point seat => Sys2Proof.Machine.execBindSharePoint ref point seat s
  | .readScreens ref first count => Sys2Proof.Machine.execReadScreens ref first count s
  | .addBooking ref form => Sys2Proof.Machine.execAddBooking ref form s
  | .cancelBooking ref slot => Sys2Proof.Machine.execCancelBooking ref slot s
  | .deleteBooking ref slot => Sys2Proof.Machine.execDeleteBooking ref slot s
  | .editBooking ref slot edit => Sys2Proof.Machine.execEditBooking ref slot edit s
  | .addParticipant ref name note => Sys2Proof.Machine.execAddParticipant ref name note s
  | .editParticipant ref index name note => Sys2Proof.Machine.execEditParticipant ref index name note s
  | .deleteParticipant ref index => Sys2Proof.Machine.execDeleteParticipant ref index s
  | .readBooking ref slot => Sys2Proof.Machine.execReadBooking ref slot s
  | .listBookings ref states first => Sys2Proof.Machine.execListBookings ref states first s
  | .readParticipant ref first count => Sys2Proof.Machine.execReadParticipant ref first count s
  | .saveSettings ref => Sys2Proof.Machine.execSaveSettings ref s
  | .setClock ref day second => Sys2Proof.Machine.execSetClock ref day second s
  | .readClock ref => Sys2Proof.Machine.execReadClock ref s
  | .checkIn ref => Sys2Proof.Machine.execCheckIn ref s
  | .extend ref slot stop => Sys2Proof.Machine.execExtend ref slot stop s
  | .endNow ref slot => Sys2Proof.Machine.execEndNow ref slot s
  | .setPreStartLead ref minutes => Sys2Proof.Machine.execSetPreStartLead ref minutes s
  | .setOverrunGrace ref minutes => Sys2Proof.Machine.execSetOverrunGrace ref minutes s
  | .setLockPolicy ref policy => Sys2Proof.Machine.execSetLockPolicy ref policy s
  | .setLine ref line edit => Sys2Proof.Machine.execSetLine ref line edit s
  | .clearLineFlags ref lines => Sys2Proof.Machine.execClearLineFlags ref lines s
  | .readLines ref => Sys2Proof.Machine.execReadLines ref s
  | .quiet ref => Sys2Proof.Machine.execQuiet ref s
  | .sleep ref => Sys2Proof.Machine.execSleep ref s
  | .wake ref => Sys2Proof.Machine.execWake ref s
  | .setIdleTime ref minutes => Sys2Proof.Machine.execSetIdleTime ref minutes s
  | .setSleepDelay ref minutes => Sys2Proof.Machine.execSetSleepDelay ref minutes s
  | .setStartState ref state => Sys2Proof.Machine.execSetStartState ref state s
  | .subscribe ref kinds => Sys2Proof.Machine.execSubscribe ref kinds s
  | .claim ref wanted window => Sys2Proof.Machine.execClaim ref wanted window s
  | .release ref named => Sys2Proof.Machine.execRelease ref named s
  | .presence ref token => Sys2Proof.Machine.execPresence ref token s
  | .identify ref => Sys2Proof.Machine.execIdentify ref s
  | .status ref => Sys2Proof.Machine.execStatus ref s

end Sys2Proof.Machine
end

