-- ==== Sys2Proof/Machine/Step.lean ====
section
/-! DEFINITION. One step of the part: the command at the front of the queue, else the oldest report in flight, else nothing. -/

namespace Sys2Proof.Machine

open Sys2Proof

/-- A step on an empty queue: the oldest report between blocks is taken by its block (log 2); with none in flight the part idles
(log 3). -/
def State.idleStep (s : State) : Host.Outcome State Fault Refusal :=
  match s.flight with
  | c :: _ => exec c s
  | [] => .next s

/-- One step (log 1). -/
def step (s : State) : Host.Outcome State Fault Refusal :=
  match s.pending with
  | c :: rest => exec c { s with pending := rest }
  | [] => s.idleStep

/-- The state with the command that a word spells at the front of the queue; no word of the table spells one (log 22). -/
def State.withFetchWord (s : State) (nbits w : Nat) : State :=
  match decodeTableWord nbits w with
  | some c => { s with pending := c :: s.pending }
  | none => s

end Sys2Proof.Machine
end

