-- ==== Sys2Proof/Safety.lean ====
section
/-! DEFINITION. What counts as a safe state and a settled change, in the terms the statements use: invariants that every step keeps, and
what the shared endings of a floor change and a screen change leave behind. -/

namespace Sys2Proof.Machine

open Sys2Proof

/-! ## Invariants -/

/-- A gain within the channel gain clamp −160..+24, or MUTE (R60, R63). -/
def gainInRange : Gain → Prop
  | .mute => True
  | .code c => -160 ≤ c ∧ c ≤ 24

/-- Every target and every applied code is MUTE or within −160..+24 (R60, R63). -/
def GainsInRange (s : State) : Prop :=
  ∀ x : Seat, gainInRange (s.mix.seats.get x).target ∧ gainInRange (s.mix.seats.get x).applied

/-- Every port has at most 8 commands in hand, and at most 32 records and commands together (R179). -/
def PortsInBounds (s : State) : Prop := ∀ p : Port, (s.port p).inHand.length ≤ 8 ∧ (s.port p).places ≤ 32

/-- The write queue holds no slot twice, and the slot being written is not in it (R128). -/
def StoreQueueSound (s : State) : Prop := s.bks.queue.Nodup ∧ ∀ w ∈ s.bks.writing, w.slot ∉ s.bks.queue

/-- The marks of a seat that is not ONLINE are CLEAR (R13). -/
def MarksClearUnlessOnline (s : State) : Prop :=
  ∀ x : Seat, (s.tbc.seats.get x).presence ≠ .online →
    (s.tbc.seats.get x).ringMark = .clear ∧ (s.tbc.seats.get x).plateMark = .clear

/-- The room clock holds a day 0 to 32767 and a second 0 to 86399 (R135). -/
def ClockInRange (s : State) : Prop := s.msc.day ≤ 32767 ∧ s.msc.second ≤ 86399

/-- The floor's collections stand as the rules of chapter 2 leave them (R21, R22, R26, R31, R32, R35, R39, R40): no seat stands twice in
the list or in the queue, or in both; the list keeps the open limit and the queue its 24 places; who speaks or waits is enabled and ONLINE; an entry has
priority exactly when its seat's role has; and who overrides speaks with priority. -/
structure FloorSound (f : Flc) : Prop where
  speakersOnce : (f.speakers.map (·.seat)).Nodup
  queueOnce : (f.queue.map (·.seat)).Nodup
  apart : ∀ e ∈ f.speakers, f.waits e.seat = false
  withinLimit : 1 ≤ f.limit → f.speakers.length ≤ f.limit
  withinPlaces : f.queue.length ≤ 24
  enabled : (∀ e ∈ f.speakers, (f.seats.get e.seat).enabled = true) ∧ ∀ q ∈ f.queue, (f.seats.get q.seat).enabled = true
  online : (∀ e ∈ f.speakers, (f.seats.get e.seat).online = true) ∧ ∀ q ∈ f.queue, (f.seats.get q.seat).online = true
  priority : ∀ e ∈ f.speakers, e.priority = hasPriority (f.role e.seat)
  overriding : ∀ x ∈ f.overrides, hasPriority (f.role x) = true ∧ f.speaks x = true

/-- The share list as R98 and R100 leave it: a share point has one entry at most, and a slot is held by one at most. -/
def SharesSound (v : Scr) : Prop := (v.shares.map (·.point)).Nodup ∧ (v.shares.filterMap (·.state.slot)).Nodup

/-- The agenda page reads as R106 says of the agenda content held. -/
def PageSound (v : Scr) : Prop :=
  (∀ c, v.agenda.current = some c → v.page = .current c.title v.organiserName c.start c.stop ::
    (v.agenda.next.map fun n => PageEntry.next n.title n.start n.stop).toList) ∧
  (∀ n, v.agenda.current = none → v.agenda.next = some n → v.page = [.availableUntil n.start, .next n.title n.start n.stop]) ∧
  (v.agenda.current = none → v.agenda.next = none → v.page = [.available])

/-! ## What a command sends -/

/-- The command is no longer in flight, and the reports `out` were sent behind what was. -/
def Sent (c : Instr) (s t : State) (out : List Instr) : Prop := t.flight = s.flight.erase c ++ out

/-- Some reports were sent, and among them those for which `p` asks. -/
def SentSome (c : Instr) (s t : State) (p : List Instr → Prop) : Prop := ∃ out, Sent c s t out ∧ p out

/-- The reports `out` were sent behind what was in flight, by an event that was not itself in flight. -/
def Raised (s t : State) (out : List Instr) : Prop := t.flight = s.flight ++ out

/-- Some reports were sent by such an event, and among them those for which `p` asks. -/
def RaisedSome (s t : State) (p : List Instr → Prop) : Prop := ∃ out, Raised s t out ∧ p out

/-- A numeric setting command answered (00_scope, Settings): the settings become `st`, and the completion says OK, or CLAMPED with the
value in force when the number lay outside `lo..hi`. -/
def NumberSet (c : Instr) (r : CmdRef) (lo hi n : Int) (st : Settings) (s : State) : State :=
  { s with
    settings := st
    flight := s.flight.erase c ++ [.blockResult r (if lo ≤ n ∧ n ≤ hi then .ok else .clamped)
      (if lo ≤ n ∧ n ≤ hi then [] else i16 (clampInt lo hi n))] }

/-- The reports sent by a floor or screen change that a command made, the last of them the command's result. -/
def EndsWith (result : Instr) (out : List Instr) : Prop := out.getLast? = some result

/-- A command answered with a result and nothing else sent. -/
def Answered (c : Instr) (r : CmdRef) (result : Result) (payload : List Byte) (s : State) : State :=
  { s with flight := s.flight.erase c ++ [.blockResult r result payload] }

/-- A report taken, with nothing sent. -/
def Taken (c : Instr) (s : State) : State := { s with flight := s.flight.erase c }

/-- The BOOKING notice TRANSITION of a booking's way from one state to another is in flight (R138). -/
def TransitionTold (t : State) (i : BSlot) (k : Booking) (old new : BState) : Prop :=
  .notice .booking (transitionPayload i k.calRef old new) ∈ t.flight

/-- The POWER notice of a change of the power state is in flight (R168, R169, R171). -/
def PowerTold (t : State) (old : Option Power) (new : Power) (cause : PowerCause) : Prop :=
  .notice .power (powerPayload old (some new) cause) ∈ t.flight

/-- The authorities a port holds, in the order of their names (R183). -/
def authoritiesOf (s : State) (p : Port) : List Authority := authorityNames.filter fun a => s.cph.holder.get a = some p

/-- The AUTHORITY notice of a change of the table, and none where the table stands (R186). -/
def authorityNotice (cause : AuthorityCause) (p : Port) (s t : State) : List Instr :=
  if t.cph.holder = s.cph.holder then [] else [.notice .authority (authorityPayload cause p t.cph.holder)]

/-! ## Settled changes -/

/-- The queue loses its first `n` entries and the list gains them, in their order, with room for each and under the override hold
with priority (R24, R33). -/
def HeadsOpened (policy : PriorityPolicy) (f g : Flc) : Prop :=
  ∃ n, n ≤ f.queue.length ∧ g.queue = f.queue.drop n
    ∧ g.speakers.map (fun e => (e.seat, e.origin)) =
        f.speakers.map (fun e => (e.seat, e.origin)) ++ (f.queue.take n).map (fun q => (q.seat, promotedOrigin q.origin))
    ∧ (0 < n → f.speakers.length + n ≤ f.limit)
    ∧ (f.holds policy = true → ∀ q ∈ f.queue.take n, hasPriority (f.role q.seat) = true)

/-- What promotion and the ring derivation leave of the floor `f` that an event's own handling made (R24, R36, R37): the speakers
stay in place and heads of the queue may open behind them, in a promoting mode alone, while the list has room and the override hold lets
them; with no seat twice in the queue, it loses exactly the heads that opened; nothing else of the floor moves. -/
structure FloorSettled (st : Settings) (f g : Flc) : Prop where
  speakers : f.speakers <+: g.speakers
  queue : g.queue.Sublist f.queue
  opened : ∀ e ∈ g.speakers, e ∈ f.speakers ∨ ∃ q ∈ f.queue, q.seat = e.seat ∧ e.origin = promotedOrigin q.origin
  heads : (f.queue.map (·.seat)).Nodup → HeadsOpened st.priorityPolicy f g
  unpromoted : promotes f.mode st.overflow = false → g.speakers = f.speakers ∧ g.queue = f.queue
  overrides : g.overrides = f.overrides
  mode : g.mode = f.mode
  limit : g.limit = f.limit
  seating : g.seating = f.seating
  plan : g.plan = f.plan
  muteSwitch : g.muteSwitch = f.muteSwitch
  power : g.power = f.power
  fields : ∀ x : Seat, (g.seats.get x).enabled = (f.seats.get x).enabled ∧ (g.seats.get x).role = (f.seats.get x).role
    ∧ (g.seats.get x).participant = (f.seats.get x).participant ∧ (g.seats.get x).online = (f.seats.get x).online
  marks : ∀ x : Seat, f.waits x = false → (g.seats.get x).selfMuted = (f.seats.get x).selfMuted
    ∧ (g.seats.get x).flash = (f.seats.get x).flash
  rings : ∀ x : Seat, (g.seats.get x).ring = g.deriveRing st.warningLead x

/-- An entry before and after the placement pass: it keeps its point, seat and approval, and its slot if it has one (R100). -/
def PlacedFrom (a b : ShareEntry) : Prop :=
  b.point = a.point ∧ b.seat = a.seat ∧ b.approved = a.approved ∧ (a.state ≠ .waiting → b.state = a.state)

/-- An entry may be shown (R99): its point is SIGNAL, under FLOOR its seat is in the held speaker list, and under CHAIR it is approved. -/
abbrev MayBeShown (policy : PresenterPolicy) (v : Scr) (e : ShareEntry) : Prop :=
  (v.points.get e.point).signal = true ∧ (policy = .floor → ∃ d ∈ v.speakers, d.seat = e.seat) ∧ (policy = .chair → e.approved = true)

/-- A slot is free (R100): it exists in its screen's layout, its source is AUTO, and no entry holds it. -/
abbrev FreeSlot (st : Settings) (v : Scr) (k : SlotId) : Prop :=
  (k = .front1 → st.layout.get .front = .split) ∧ (k = .rear1 → st.layout.get .rear = .split) ∧ st.source.get k = .auto ∧
    ∀ e ∈ v.shares, e.state.slot ≠ some k

/-- The list after the placement pass (R100): the WAITING entries that may be shown, oldest first, go one by one into the free slots in
the order FRONT 0, FRONT 1, REAR 0, REAR 1, and no other entry changes. -/
def placedList (st : Settings) (v : Scr) : List ShareEntry :=
  let eligible := v.shares.filter fun e => e.state = .waiting ∧ MayBeShown st.presenter v e
  let free := ([.front0, .front1, .rear0, .rear1] : List SlotId).filter fun k => FreeSlot st v k
  v.shares.map fun e => match (eligible.zip free).find? (fun d => d.1 = e) with
    | some d => { e with state := .shown d.2 }
    | none => e

/-- No free slot is left while an eligible WAITING entry is (R100). -/
def PlacementDone (st : Settings) (v : Scr) : Prop :=
  (∀ k : SlotId, ¬ FreeSlot st v k) ∨ ∀ e ∈ v.shares, e.state = .waiting → ¬ MayBeShown st.presenter v e

/-- Where promotion ends (R24, R33): the queue is empty, the list is full, or the override hold keeps back a head without priority. -/
def PromotionDone (policy : PriorityPolicy) (f : Flc) : Prop :=
  f.queue = [] ∨ f.limit ≤ f.speakers.length ∨
    (f.holds policy = true ∧ ∃ q rest, f.queue = q :: rest ∧ hasPriority (f.role q.seat) = false)

/-- What the placement pass and the derivations leave of the Screen Router state `v` that an event's own handling made (R109). With one
entry for a point (R98), the list is the one R100 gives. -/
structure ScreenSettled (st : Settings) (v w : Scr) : Prop where
  entries : List.Forall₂ PlacedFrom v.shares w.shares
  placed : PlacementDone st w
  list : (v.shares.map (·.point)).Nodup → w.shares = placedList st v
  points : w.points = v.points
  speakers : w.speakers = v.speakers
  queue : w.queue = v.queue
  lead : w.lead = v.lead
  power : w.power = v.power
  endingMark : w.endingMark = v.endingMark
  agenda : w.agenda = v.agenda
  organiser : w.organiserName = v.organiserName
  page : w.page = v.page
  held : ∀ x : Seat, (w.seats.get x).signal = (v.seats.get x).signal ∧ (w.seats.get x).enabled = (v.seats.get x).enabled
    ∧ (w.seats.get x).online = (v.seats.get x).online ∧ (w.seats.get x).role = (v.seats.get x).role
    ∧ (w.seats.get x).participant = (v.seats.get x).participant

/-- Nothing but the floor, the settings and the reports in flight changed. -/
def FloorFrame (s t : State) : Prop := t = { s with settings := t.settings, flc := t.flc, flight := t.flight }

/-- Nothing but the Screen Router, the settings and the reports in flight changed. -/
def ScreenFrame (s t : State) : Prop := t = { s with settings := t.settings, scr := t.scr, flight := t.flight }

/-- Nothing but the store, the reports in flight and the marks of the scheduler's own memory changed. -/
def StoreFrame (s t : State) : Prop := t = { s with bks := t.bks, flight := t.flight }

/-- The scheduler's doings: the clock, the booking records, the MIC and key flags of the table bus, the speech timers, and reports. -/
def ScheduleFrame (s t : State) : Prop := t = { s with msc := t.msc, bks := t.bks, tbc := t.tbc, flight := t.flight }

/-- Nothing but the power unit, the reports and the hub's marks of waiting commands changed. -/
def PowerFrame (s t : State) : Prop := t = { s with pcu := t.pcu, cph := t.cph, flight := t.flight }

/-- Nothing but the ports, the authority table, the idle timer and the reports in flight changed. -/
def PortFrame (s t : State) : Prop := t = { s with cph := t.cph, pcu := t.pcu, flight := t.flight }

/-- The speaker entry that the opening of a seat appends (R21, R34). -/
def newEntry (s : State) (x : Seat) (o : Origin) : SpeakerEntry :=
  { seat := x, origin := o, day := s.msc.day, second := s.msc.second
    remaining := if hasPriority (s.flc.role x) || s.settings.speechLimit = 0 then none else some s.settings.speechLimit
    priority := hasPriority (s.flc.role x), overtime := false }

/-! ## The results of a change -/

/-- The handling of one event sent, behind the reports that were in flight, those of which `reports` speaks, and no others but those of
which `follows` speaks. -/
def Tells (s t : State) (reports follows : Instr → Prop) : Prop :=
  ∃ before out, (before = s.flight ∨ ∃ c, before = s.flight.erase c) ∧ t.flight = before ++ out ∧
    (∀ i, reports i → i ∈ out) ∧ ∀ i ∈ out, reports i ∨ follows i

/-- The stage of a speaker's timer (R35): the seat, whether its seconds left stand within the warning lead, and its overtime. -/
def stageOf (lead : Nat) (e : SpeakerEntry) : Seat × Bool × Bool :=
  (e.seat, lead ≠ 0 && e.remaining.any (fun n => n ≤ lead), e.overtime)

/-- The results of a floor change from `s` to `t`, line by line of R37's table; `told` is the answer the Power and Clock Unit was last
given (R166). A change of origins alone sends the notice and nothing else, the model's choice (log 46). -/
def FloorReports (cause : FloorCause) (told : Bool) (s t : State) : Instr → Prop
  | .floorChangeAtMix v =>
    (v.speakers = t.flc.speakers.map (fun e => (e.seat, e.priority)) ∧ (v.overriding = true ↔ t.flc.overrides ≠ []) ∧
      v.policy = t.settings.priorityPolicy) ∧
    (s.flc.speakers.map (fun e => (e.seat, e.priority)) ≠ t.flc.speakers.map (fun e => (e.seat, e.priority)) ∨
      s.flc.overrides ≠ t.flc.overrides ∨ s.settings.priorityPolicy ≠ t.settings.priorityPolicy)
  | .floorChangeAtScr v =>
    (v.speakers = t.flc.speakers.map (fun e => ⟨e.seat, e.remaining, e.overtime⟩) ∧ v.queue = t.flc.queue.map (·.seat) ∧
      v.lead = t.settings.warningLead ∧ ∀ x, v.roles.get x = (t.flc.seats.get x).role ∧
        v.participants.get x = (t.flc.seats.get x).participant ∧ v.enabled.get x = (t.flc.seats.get x).enabled) ∧
    (s.flc.speakers.map (stageOf s.settings.warningLead) ≠ t.flc.speakers.map (stageOf t.settings.warningLead) ∨
      s.flc.queue.map (·.seat) ≠ t.flc.queue.map (·.seat) ∨ s.settings.warningLead ≠ t.settings.warningLead ∨
      ∃ x, (s.flc.seats.get x).participant ≠ (t.flc.seats.get x).participant ∨ (s.flc.seats.get x).role ≠ (t.flc.seats.get x).role ∨
        (s.flc.seats.get x).enabled ≠ (t.flc.seats.get x).enabled)
  | .liveLampReport empty => (empty = true ↔ t.flc.speakers = []) ∧ ¬ (s.flc.speakers = [] ↔ t.flc.speakers = [])
  | .floorEmptyReport empty => (empty = true ↔ t.flc.speakers = [] ∧ t.flc.queue = []) ∧ empty ≠ told
  | .eligibilityReport x b =>
    (b = true ↔ (t.flc.seats.get x).enabled = true ∧ (t.flc.seats.get x).selfMuted = false) ∧
    ((s.flc.seats.get x).enabled ≠ (t.flc.seats.get x).enabled ∨ (s.flc.seats.get x).selfMuted ≠ (t.flc.seats.get x).selfMuted)
  | .enabledReportAtTbc x b => b = (t.flc.seats.get x).enabled ∧ (s.flc.seats.get x).enabled ≠ (t.flc.seats.get x).enabled
  | .enabledReportAtScr x b => b = (t.flc.seats.get x).enabled ∧ (s.flc.seats.get x).enabled ≠ (t.flc.seats.get x).enabled
  | .ringChange x => (s.flc.seats.get x).ring ≠ (t.flc.seats.get x).ring
  | .notice kind payload =>
    (kind = .floor ∧ payload = floorPayload cause t.flc) ∧
    (s.flc.speakers.map (fun e => { e with remaining := none }) ≠ t.flc.speakers.map (fun e => { e with remaining := none }) ∨
      s.flc.queue ≠ t.flc.queue ∨ s.flc.overrides ≠ t.flc.overrides ∨
      (∃ x, (s.flc.seats.get x).enabled ≠ (t.flc.seats.get x).enabled ∨ (s.flc.seats.get x).role ≠ (t.flc.seats.get x).role ∨
        (s.flc.seats.get x).participant ≠ (t.flc.seats.get x).participant ∨ (s.flc.seats.get x).selfMuted ≠ (t.flc.seats.get x).selfMuted) ∨
      s.settings.defaultMode ≠ t.settings.defaultMode ∨ s.settings.defaultLimit ≠ t.settings.defaultLimit ∨
      s.settings.overflow ≠ t.settings.overflow ∨ s.settings.priorityPolicy ≠ t.settings.priorityPolicy ∨
      s.settings.speechLimit ≠ t.settings.speechLimit ∨ s.settings.warningLead ≠ t.settings.warningLead ∨
      s.settings.expiryAction ≠ t.settings.expiryAction)
  | _ => False

/-- What the handling of an event at the floor may send behind the results of its floor change: a command's result (R178), the chime of an
override (R31), the eligibility of a seat that arrives (R42), and a second event's times and expiry (R34, R35). -/
def FollowsFloor : Instr → Prop
  | .blockResult .. | .chimeRequest | .eligibilityReport .. | .speechRemainingReport _ | .speechTimerExpiry => True
  | _ => False

/-- The event sent the results of its floor change (R37), and nothing else but what may follow them. -/
def FloorTold (cause : FloorCause) (s t : State) : Prop := Tells s t (FloorReports cause s.flc.emptyTold s t) FollowsFloor

/-- The results of a screen change from `s` to `t`, line by line of R109's list; `told` is the answer the Power and Clock Unit was last
given (R166). -/
def ScreenReports (cause : ShareCause) (told : Bool) (s t : State) : Instr → Prop
  | .nameplateChange x => (s.scr.seats.get x).plate ≠ (t.scr.seats.get x).plate
  | .shareListEmptyReport empty => (empty = true ↔ t.scr.shares = []) ∧ empty ≠ told
  | .notice kind payload =>
    (kind = .share ∧ payload = sharePayload cause t.scr) ∧
    (s.scr.shares ≠ t.scr.shares ∨ (∃ p, (s.scr.points.get p).signal ≠ (t.scr.points.get p).signal) ∨ s.scr.screens ≠ t.scr.screens)
  | _ => False

/-- What the handling of an event at the screens may send behind the results of its screen change: a command's result (R178). -/
def FollowsScreens : Instr → Prop
  | .blockResult .. => True
  | _ => False

/-- The event sent the results of its screen change (R109), and nothing else but what may follow them. -/
def ScreenTold (cause : ShareCause) (s t : State) : Prop := Tells s t (ScreenReports cause s.scr.emptyTold s t) FollowsScreens

/-- The event's own handling made the floor `f`, under the settings as they were; promotion, the rings and the results followed. -/
def FloorBecomes (cause : FloorCause) (s t : State) (f : Flc) : Prop :=
  FloorFrame s t ∧ t.settings = s.settings ∧ FloorSettled s.settings f t.flc ∧ FloorTold cause s t

/-- The event changed nothing and brought no promotion; the rings and the results followed. -/
def FloorStays (cause : FloorCause) (s t : State) : Prop := FloorBecomes cause s t s.flc ∧ t.flc.speakers = s.flc.speakers ∧ t.flc.queue = s.flc.queue

/-- The same with the settings set to `st` by the command itself. -/
def FloorBecomesUnder (cause : FloorCause) (s t : State) (st : Settings) (f : Flc) : Prop :=
  FloorFrame s t ∧ t.settings = st ∧ FloorSettled st f t.flc ∧ FloorTold cause s t

/-- The event's own handling made the Screen Router `v`, under the settings `st`; placement, the derivations and the results followed. -/
def ScreenBecomes (cause : ShareCause) (s t : State) (st : Settings) (v : Scr) : Prop :=
  ScreenFrame s t ∧ t.settings = st ∧ ScreenSettled st v t.scr ∧ ScreenTold cause s t

/-- Every target is the gain plan's (R60): MUTE for a seat that is not a speaker and for all under the mute switch, and else the
clamped sum of trim, master level, NOM attenuation and override duck. -/
def TargetsPlanned (t : State) : Prop :=
  ∀ x : Seat,
    ((∀ e ∈ t.mix.speakers, e.1 ≠ x) → (t.mix.seats.get x).target = .mute) ∧
    (t.mix.mute = true → (t.mix.seats.get x).target = .mute) ∧
    (∀ e, t.mix.mute = false → t.mix.speakers.find? (fun d => d.1 = x) = some e →
      (t.mix.seats.get x).target = .code (clampInt (-160) 24 (t.settings.trim.get x + t.settings.master
        - (if t.settings.nom then nomAttenuation t.mix.speakers.length else 0)
        + (if t.mix.overriding = true ∧ t.mix.policy = .duck ∧ e.2 = false then t.settings.duck else 0))))

/-- Nothing of the engine changed but the targets. -/
def OnlyTargets (m n : Mix) : Prop :=
  n = { m with seats := n.seats } ∧ ∀ x : Seat, n.seats.get x = { m.seats.get x with target := (n.seats.get x).target }

/-- Every nameplate shows what R107 and R108 derive: nothing in a dark room, and else the participant, the role, the floor mark and the
ending mark. -/
def PlatesDerived (t : State) : Prop :=
  ∀ x : Seat,
    let plate := (t.scr.seats.get x).plate
    (isDark t.scr.power = true → plate = {}) ∧
    (isDark t.scr.power = false →
      plate.name = (t.participant (t.scr.seats.get x).participant).name ∧
      plate.note = (t.participant (t.scr.seats.get x).participant).note ∧
      plate.role = (t.scr.seats.get x).role ∧ plate.ending = t.scr.endingMark ∧
      (∀ e, t.scr.speakers.find? (fun d => d.seat = x) = some e →
        plate.mark = .speaking (speakTime t.scr.lead e.remaining e.overtime)) ∧
      ((∀ e ∈ t.scr.speakers, e.seat ≠ x) → x ∉ t.scr.queue → plate.mark = .nothing) ∧
      ((∀ e ∈ t.scr.speakers, e.seat ≠ x) → ∀ i, t.scr.queue.findIdx? (fun y => y = x) = some i → plate.mark = .queued (i + 1)))

/-- What a slot of a lit screen shows (R94). -/
def SlotShows (t : State) (k : SlotId) (c : Shown) : Prop :=
  (t.settings.source.get k = .nothing → c = .black) ∧ (t.settings.source.get k = .roomPc → c = .roomPc) ∧
  (t.settings.source.get k = .agenda → c = .agendaPage) ∧
  (t.settings.source.get k = .auto → (∀ e ∈ t.scr.shares, e.state.slot ≠ some k) → c = .agendaPage) ∧
  (t.settings.source.get k = .auto → ∀ e, t.scr.shares.find? (fun d => d.state.slot = some k) = some e → c = .input e.point)

/-- Both compositions show what R94 and R105 derive. -/
def ScreensDerived (t : State) : Prop :=
  ∀ c : Screen,
    (t.scr.screens.get c).layout = t.settings.layout.get c ∧
    ((t.scr.screens.get c).right.isSome = true ↔ t.settings.layout.get c = .split) ∧
    (isDark t.scr.power = true → (t.scr.screens.get c).left = .black ∧ (∀ v ∈ (t.scr.screens.get c).right, v = .black) ∧
      (t.scr.screens.get c).caption = none) ∧
    (isDark t.scr.power = false → SlotShows t (leftSlot c) (t.scr.screens.get c).left ∧
      (∀ v ∈ (t.scr.screens.get c).right, SlotShows t (rightSlot c) v) ∧
      (t.settings.caption = false ∨ t.scr.speakers = [] → (t.scr.screens.get c).caption = none) ∧
      (∀ e, t.settings.caption = true → t.scr.speakers.getLast? = some e → (t.scr.screens.get c).caption =
        some (match (t.scr.seats.get e.seat).participant with
          | some p => (t.participant (some p)).name
          | none => seatCaption e.seat)))

/-- Every entry that holds a slot holds one that exists in its layout and whose source is AUTO (R100). -/
def SlotsInForce (s : State) : Prop :=
  ∀ e ∈ s.scr.shares, ∀ k, e.state.slot = some k → slotExists s.settings k = true ∧ s.settings.source.get k = .auto

/-! ## What a reset finds in the store (R133, R134) -/

/-- The slots of the store in ascending order (R116): the bookings, the participants and the settings. -/
def storeSlots : List StoreSlot :=
  allBSlots.map StoreSlot.booking ++ (List.finRange 96).map StoreSlot.participant ++ [.settings]

/-- A slot whose checksum fails at the start that follows a reset (R133, R134): it was WRITING, or what non-volatile memory holds of it
was torn before and never repaired. -/
def tornAtReset (b : Bks) (k : StoreSlot) : Bool :=
  b.writing.any (fun w => w.slot = k) || match k with
    | .booking i => b.durable.bookings.get i = .torn
    | .participant p => b.durable.participants.get p = .torn
    | .settings => b.durable.settings = .torn

/-- The booking that the start finds in a slot: its last written content, and none in a torn slot. -/
def foundBooking (b : Bks) (i : BSlot) : Option Booking :=
  if tornAtReset b (.booking i) then none else match b.durable.bookings.get i with
    | .good v => v
    | .torn => none

/-- The participant that the start finds in a slot: its last written content, and none in a torn slot. -/
def foundParticipant (b : Bks) (p : PIdx) : Option Participant :=
  if tornAtReset b (.participant p) then none else match b.durable.participants.get p with
    | .good v => v
    | .torn => none

/-- The settings that the start finds: those last saved, and the factory ones in a torn slot. -/
def foundSettings (b : Bks) : Settings :=
  if tornAtReset b .settings then Settings.factory else match b.durable.settings with
    | .good v => v
    | .torn => Settings.factory

/-- A booking without its references to participant slots that the start finds empty (R134, R125). -/
def withoutEmpty (b : Bks) (k : Booking) : Booking :=
  { k with
    organiser := k.organiser.filter fun p => foundParticipant b p ≠ none
    plan := { k.plan with attendees := k.plan.attendees.filter fun a => foundParticipant b a.2 ≠ none } }

/-! ## The keys of an answer (R9 to R12) -/

/-- The test of one key by an accepted answer (R9): accepted level, candidate, and the accepted edge; a key the kind does not carry
is not tested. -/
def tested (s : State) (x : Seat) (a : Answer) (k : Key) : KeyLevel × Option (KeyLevel × Nat) × Option KeyEdge :=
  let t := s.tbc.seats.get x
  if carries a.kind k then keyTest s.settings.debounce (t.accepted.get k) (t.candidate.get k) (a.levels.get k)
  else (t.accepted.get k, t.candidate.get k, none)

/-- The accepted edge of a key is there and qualifies (R10). -/
def tellsFlag (s : State) (x : Seat) (a : Answer) (k : Key) : Bool :=
  (tested s x a k).2.2.any (qualifying k (s.settings.keyMode.get x))

/-- What the accepted edge of one key sends (R10, R11, R12): the MIC flag that it sets from clear; in FULL, for a seat held as
enabled, the key event of a qualifying edge; in QUIET the wake request of a press. -/
def edgeReports (s : State) (x : Seat) (a : Answer) (k : Key) : List Instr :=
  match (tested s x a k).2.2 with
  | none => []
  | some e =>
    (if tellsFlag s x a k = true ∧ k = .mic ∧ (s.tbc.seats.get x).flag.mic = false then [.micFlagReport x] else [])
      ++ (if tellsFlag s x a k = true ∧ s.tbc.power = some .full ∧ (s.tbc.seats.get x).heldEnabled = true then
          [if k = .share then .shareKeyEvent x else .keyEvent x k e (s.settings.keyMode.get x)] else [])
      ++ (if e = .press ∧ s.tbc.power = some .quiet then [.wakeRequest .key] else [])

/-! ## Polls -/

/-- The poll of a branch completes POLL-PASS (R171): with it each branch has polled its address 31 since the restart (log 24). -/
def CompletesPass (b : Branch) (s : State) : Prop :=
  s.pcu.phase = some .pollPass ∧ s.tbc.phase = some .pollPass ∧
    (s.tbc.passLeft = true ∨ (b = .left ∧ s.tbc.nextLeft = 31)) ∧ (s.tbc.passRight = true ∨ (b = .right ∧ s.tbc.nextRight = 31))

/-! ## Iterations -/

/-- A key's record after `n` tests of the same raw level (R9). -/
def keyRun (d : Nat) (accepted raw : KeyLevel) : Nat → KeyLevel × Option (KeyLevel × Nat) × Option KeyEdge
  | 0 => (accepted, none, none)
  | n + 1 => keyTest d (keyRun d accepted raw n).1 (keyRun d accepted raw n).2.1 raw

/-- An applied code after `n` ramp ticks toward one target (R63). -/
def rampRun (target : Gain) : Nat → Gain → Gain
  | 0, a => a
  | n + 1, a => rampRun target n (rampStep a target)

/-- A detector after `n` blocks, all above the threshold or all below it, with the reports it made (R85, R86). -/
def detectorRun (onset hold : Nat) (above : Bool) : Nat → VdtSeat → VdtSeat × List Bool
  | 0, t => (t, [])
  | n + 1, t =>
    let r := detectorStep onset hold above t
    let rest := detectorRun onset hold above n r.1
    (rest.1, r.2.toList ++ rest.2)

end Sys2Proof.Machine
end

