-- ==== Sys2Proof/Certificates/Slice0/Obligations.lean ====
section
/-! DEFINITION. The statements about the part, one `def Obligations.<Name> : Prop` each. OBLIGATIONS.json names the rule behind each. -/

open Sys2Proof Sys2Proof.Machine

/-! ## The step -/

/-- A step with a command at the front of the queue is that command over the rest of the queue (log 1). -/
def Obligations.StepRunsTheFrontCommand : Prop :=
  ∀ (c : Instr) (s : State), step { s with pending := c :: s.pending } = exec c s

/-- Every command is answered with a next state and takes nothing from the queue behind it. This is the model's choice (log 1): the spec
names no queue; no command stops the part, and RESET too leaves the queue alone. -/
def Obligations.EveryCommandGoesOn : Prop :=
  ∀ (c : Instr) (s : State), ∃ t, exec c s = .next t ∧ t.pending = s.pending

/-! ## The table bus (chapter 1) -/

/-- A poll carries a PENDING ring state first, a PENDING nameplate next, and else nothing; the item it carries goes from PENDING to
SENT, and the branch moves on to its next address, a poll of its address 31 completing its cycle (R1, R3, R13, R171). Only the poll that
completes POLL-PASS changes more than the table bus (log 24). On a bus that is not polled nothing happens. -/
def Obligations.PollCarriesTheItem : Prop :=
  ∀ (b : Branch) (s : State) (x : Seat), x = seatAt b (s.tbc.nextAddress b) →
    (s.polls = false → exec (.poll b) s = .next s) ∧
    (s.polls = true → ∃ t, exec (.poll b) s = .next t ∧
      t = { s with tbc := t.tbc, pcu := t.pcu, cph := t.cph, flight := t.flight } ∧ (¬ CompletesPass b s → t = { s with tbc := t.tbc }) ∧
      t.tbc.power = s.tbc.power ∧ t.tbc.phase = s.tbc.phase ∧
      t.tbc.passLeft = (s.tbc.passLeft || (b = .left && s.tbc.nextLeft = 31)) ∧
      t.tbc.passRight = (s.tbc.passRight || (b = .right && s.tbc.nextRight = 31)) ∧
      (∀ y, y ≠ x → t.tbc.seats.get y = s.tbc.seats.get y) ∧
      t.tbc.nextAddress b = s.tbc.nextAddress b + 1 ∧ (∀ c, c ≠ b → t.tbc.nextAddress c = s.tbc.nextAddress c) ∧
      ((s.tbc.seats.get x).presence = .online → (s.tbc.seats.get x).ringMark = .pending →
        t.tbc.lastPoll = some (x, .ring (s.flc.seats.get x).ring) ∧
        t.tbc.seats.get x = { s.tbc.seats.get x with ringMark := .sent }) ∧
      ((s.tbc.seats.get x).presence = .online → (s.tbc.seats.get x).ringMark ≠ .pending → (s.tbc.seats.get x).plateMark = .pending →
        t.tbc.lastPoll = some (x, .plate (s.scr.seats.get x).plate) ∧
        t.tbc.seats.get x = { s.tbc.seats.get x with plateMark := .sent }) ∧
      ((s.tbc.seats.get x).presence ≠ .online ∨
          ((s.tbc.seats.get x).ringMark ≠ .pending ∧ (s.tbc.seats.get x).plateMark ≠ .pending) →
        t.tbc.lastPoll = some (x, .nothing) ∧ t.tbc.seats.get x = s.tbc.seats.get x))

/-- The first accepted answer of a seat that is not ONLINE brings it ONLINE with the answer's kind and levels, makes both marks
PENDING, and reports the change to the four blocks and the ports (R5, R7, R13). -/
def Obligations.FirstAnswerBringsTheSeatOnline : Prop :=
  ∀ (x : Seat) (a : Answer) (s : State), s.polls = true → (s.tbc.seats.get x).presence ≠ .online → a.kind ≠ .noUnit →
    ∃ t, exec (.acceptedAnswer x a) s = .next t ∧ t = { s with tbc := t.tbc, flight := t.flight } ∧
      (∀ y, y ≠ x → t.tbc.seats.get y = s.tbc.seats.get y) ∧
      (∀ k, carries a.kind k = true → (t.tbc.seats.get x).accepted.get k = a.levels.get k) ∧
      (∀ k, (t.tbc.seats.get x).candidate.get k = none ∧ (t.tbc.seats.get x).flag.get k = (s.tbc.seats.get x).flag.get k) ∧
      (t.tbc.seats.get x).presence = .online ∧ (t.tbc.seats.get x).kind = a.kind ∧ (t.tbc.seats.get x).missed = 0 ∧
      (t.tbc.seats.get x).ringMark = .pending ∧ (t.tbc.seats.get x).plateMark = .pending ∧
      (t.tbc.seats.get x).shareSignal = (a.kind = .delegateShare && a.shareSignal) ∧
      Raised s t ([.presenceReportAtFlc x (s.tbc.seats.get x).presence .online, .presenceReportAtMix x .online,
          .presenceReportAtVdt x .online, .presenceReportAtScr x .online, .notice .seat (seatPayload x .online a.kind)] ++
        (if a.kind = .delegateShare then [.shareSignalReport x a.shareSignal] else []))

/-- An accepted answer of an ONLINE seat's own kind (R2, R4, R9 to R13) tests every key the kind carries once; an accepted edge that qualifies sets
the key's flag, and it sends what R10, R11 and R12 say: a MIC flag set from clear, the key event of an enabled seat in FULL, the wake request of a
press in QUIET. That a key event carries the seat's key mode beside the seat, the key and the edge is the model's choice (log 9), and so is the order
MIC, PRIORITY, NEXT, SHARE among the keys of one answer (log 52). The share signal is held and, at a DELEGATE-SHARE seat, reported; each mark moves by
the acknowledgement; the other keys, the presence and the other seats stay. An answer of a kind that is none of the three, or not the ONLINE seat's
own, is taken as missed. -/
def Obligations.AnswerTestsEveryKey : Prop :=
  ∀ (x : Seat) (a : Answer) (s : State), s.polls = true →
    (a.kind = .noUnit ∨ ((s.tbc.seats.get x).presence = .online ∧ a.kind ≠ (s.tbc.seats.get x).kind) →
      exec (.acceptedAnswer x a) s = exec (.missedAnswer x) s) ∧
    ((s.tbc.seats.get x).presence = .online → a.kind = (s.tbc.seats.get x).kind → a.kind ≠ .noUnit →
    ∃ t, exec (.acceptedAnswer x a) s = .next t ∧
      t = { s with tbc := t.tbc, pcu := { s.pcu with idle := t.pcu.idle }, flight := t.flight } ∧
      (∀ y, y ≠ x → t.tbc.seats.get y = s.tbc.seats.get y) ∧
      (t.tbc.seats.get x).presence = .online ∧ (t.tbc.seats.get x).kind = a.kind ∧ (t.tbc.seats.get x).missed = 0 ∧
      (∀ k, (t.tbc.seats.get x).accepted.get k = (tested s x a k).1 ∧ (t.tbc.seats.get x).candidate.get k = (tested s x a k).2.1 ∧
        (t.tbc.seats.get x).flag.get k = ((s.tbc.seats.get x).flag.get k || tellsFlag s x a k)) ∧
      (t.tbc.seats.get x).shareSignal = (a.kind = .delegateShare && a.shareSignal) ∧
      (t.tbc.seats.get x).ringMark = (if (s.tbc.seats.get x).ringMark = .sent then (if a.ack = .ring then .clear else .pending)
        else (s.tbc.seats.get x).ringMark) ∧
      (t.tbc.seats.get x).plateMark = (if (s.tbc.seats.get x).plateMark = .sent then (if a.ack = .plate then .clear else .pending)
        else (s.tbc.seats.get x).plateMark) ∧
      Raised s t (([.mic, .priority, .next, .share] : List Key).flatMap (edgeReports s x a) ++
        (if a.kind = .delegateShare then [.shareSignalReport x a.shareSignal] else [])))

/-- A key's raw level becomes its accepted level, with its edge, on the debounce-th test in a row that gives it, and not before (R9). -/
def Obligations.KeyEdgeTakesTheDebounceCount : Prop :=
  ∀ (d n : Nat) (old raw : KeyLevel), raw ≠ old → 1 ≤ d →
    (n < d → (keyRun d old raw n).1 = old ∧ (keyRun d old raw n).2.2 = none) ∧
    keyRun d old raw d = (raw, none, some (if raw = .down then .press else .release)) ∧
    (keyRun d old raw (d + n + 1)).1 = raw ∧ (keyRun d old raw (d + n + 1)).2.2 = none

/-- A missed answer counts at an ONLINE seat, returns its SENT marks to PENDING, and the third in a row takes it OFFLINE with both
marks CLEAR, its key flags kept, and the change reported; at any other seat it does nothing (R4, R6, R13). -/
def Obligations.ThreeMissedAnswersTakeTheSeatOffline : Prop :=
  ∀ (x : Seat) (s : State), s.polls = true →
    ((s.tbc.seats.get x).presence ≠ .online → exec (.missedAnswer x) s = .next s) ∧
    ((s.tbc.seats.get x).presence = .online → ∃ t, exec (.missedAnswer x) s = .next t ∧
      t = { s with tbc := t.tbc, flight := t.flight } ∧ (∀ y, y ≠ x → t.tbc.seats.get y = s.tbc.seats.get y) ∧
      (t.tbc.seats.get x).flag = (s.tbc.seats.get x).flag ∧ (t.tbc.seats.get x).accepted = (s.tbc.seats.get x).accepted ∧
      ((s.tbc.seats.get x).missed < 2 → (t.tbc.seats.get x).presence = .online ∧
        (t.tbc.seats.get x).missed = (s.tbc.seats.get x).missed + 1 ∧ t.flight = s.flight ∧
        ((s.tbc.seats.get x).ringMark = .sent → (t.tbc.seats.get x).ringMark = .pending) ∧
        ((s.tbc.seats.get x).plateMark = .sent → (t.tbc.seats.get x).plateMark = .pending)) ∧
      (2 ≤ (s.tbc.seats.get x).missed → (t.tbc.seats.get x).presence = .offline ∧
        (t.tbc.seats.get x).ringMark = .clear ∧ (t.tbc.seats.get x).plateMark = .clear ∧
        Raised s t [.presenceReportAtFlc x .online .offline, .presenceReportAtMix x .offline, .presenceReportAtVdt x .offline,
          .presenceReportAtScr x .offline, .notice .seat (seatPayload x .offline (s.tbc.seats.get x).kind)]))

/-- A report of a changed ring or nameplate makes the mark of an ONLINE seat PENDING and leaves any other seat's mark alone; a report
of the enabled field is held (R10, R13). -/
def Obligations.ContentReportsMarkTheSeat : Prop :=
  ∀ (x : Seat) (b : Bool) (s : State),
    (∃ t, exec (.ringChange x) s = .next t ∧ t = { Taken (.ringChange x) s with tbc := t.tbc } ∧
      ∀ y, t.tbc.seats.get y = if y = x ∧ (s.tbc.seats.get x).presence = .online then
        { s.tbc.seats.get x with ringMark := .pending } else s.tbc.seats.get y) ∧
    (∃ t, exec (.nameplateChange x) s = .next t ∧ t = { Taken (.nameplateChange x) s with tbc := t.tbc } ∧
      ∀ y, t.tbc.seats.get y = if y = x ∧ (s.tbc.seats.get x).presence = .online then
        { s.tbc.seats.get x with plateMark := .pending } else s.tbc.seats.get y) ∧
    (∃ t, exec (.enabledReportAtTbc x b) s = .next t ∧ t = { Taken (.enabledReportAtTbc x b) s with tbc := t.tbc } ∧
      ∀ y, t.tbc.seats.get y = if y = x then { s.tbc.seats.get x with heldEnabled := b } else s.tbc.seats.get y)

/-- SET-KEY-MODE sets the key mode of one seat or of all. CLEAR-KEY-FLAGS clears the named keys' flags at the named seats, an empty set
naming all four keys, and the word of an activation or an ending clears all flags or every MIC flag; no other flag and nothing else of
a seat changes (R15, R18, R147, R150). -/
def Obligations.KeyModesAndFlags : Prop :=
  ∀ (r : CmdRef) (sel : SeatSel) (m : KeyMode) (ks : List Key) (micOnly : Bool) (s : State),
    (sel ≠ .one none → ∃ t, exec (.setKeyMode r sel (some m)) s = .next t ∧
      t = { Answered (.setKeyMode r sel (some m)) r .ok [] s with settings := { s.settings with keyMode := t.settings.keyMode } } ∧
      ∀ y, t.settings.keyMode.get y = if sel = .all ∨ sel = .one (some y) then m else s.settings.keyMode.get y) ∧
    (sel ≠ .one none → ∃ t, exec (.clearKeyFlags r sel (some ks)) s = .next t ∧
      t = { Answered (.clearKeyFlags r sel (some ks)) r .ok [] s with tbc := t.tbc } ∧
      ∀ y, t.tbc.seats.get y = { s.tbc.seats.get y with flag := (t.tbc.seats.get y).flag } ∧
        ∀ k, (t.tbc.seats.get y).flag.get k = ((s.tbc.seats.get y).flag.get k &&
          !((sel = .all || sel = .one (some y)) && (ks = [] || ks.contains k)))) ∧
    (∃ t, exec (.keyFlagClearing micOnly) s = .next t ∧ t = { Taken (.keyFlagClearing micOnly) s with tbc := t.tbc } ∧
      ∀ y, t.tbc.seats.get y = { s.tbc.seats.get y with flag := (t.tbc.seats.get y).flag } ∧
        ∀ k, (t.tbc.seats.get y).flag.get k = ((s.tbc.seats.get y).flag.get k && (micOnly && k ≠ .mic)))

/-- The reading commands answer OK with what is held and change nothing, but that READ-METERS then clears the peaks and clip flags; a run of
seats or indexes that is empty, too long or leaves its table, a slot that is none and a first slot past the table are refused BAD-ARGUMENT (R17,
R55, R76, R115, R126, R137, R165, R187). The payloads are written as the model writes them (logs 7, 18, 34 and 44). -/
def Obligations.ReadingCommands : Prop :=
  ∀ (r : CmdRef) (first count : Nat) (slot : BSlot) (states : List (Option BState)) (s : State),
    let found := (List.finRange 32).filter fun i => first ≤ i.val && s.bks.matchesSet states i
    (1 ≤ count → count ≤ 16 → first + count ≤ 64 → exec (.readSeat r first count) s = .next (Answered (.readSeat r first count) r .ok
      ((runOf 64 first count).flatMap fun x => seatEntry (s.settings.keyMode.get x) x (s.tbc.seats.get x)) s)) ∧
    (count = 0 ∨ 16 < count ∨ 64 < first + count → exec (.readSeat r first count) s =
      .next (Answered (.readSeat r first count) r .badArgument [] s)) ∧
    exec (.readFloor r) s = .next (Answered (.readFloor r) r .ok s.floorReport s) ∧
    (1 ≤ count → count ≤ 16 → first + count ≤ 64 → ∃ t, exec (.readMeters r first count) s = .next t ∧
      t = { Answered (.readMeters r first count) r .ok (s.meters first count) s with mix := t.mix } ∧
      t.mix = { s.mix with programClip := false, programPeak := 0, remotePeak := 0, seats := t.mix.seats } ∧
      ∀ x, t.mix.seats.get x = { s.mix.seats.get x with feedClip := false }) ∧
    (count = 0 ∨ 16 < count ∨ 64 < first + count → exec (.readMeters r first count) s =
      .next (Answered (.readMeters r first count) r .badArgument [] s)) ∧
    (16 < count ∨ 64 < first + count ∨ 64 ≤ first → exec (.readScreens r first count) s =
      .next (Answered (.readScreens r first count) r .badArgument [] s)) ∧
    (count ≤ 16 → first + count ≤ 64 → first < 64 → exec (.readScreens r first count) s =
      .next (Answered (.readScreens r first count) r .ok (s.screensReport first count) s)) ∧
    (s.bks.bookings.get slot = none → exec (.readBooking r (some slot)) s = .next (Answered (.readBooking r (some slot)) r .ok
      (flagByte true ++ u8 (s.bks.persist (.booking slot)).code) s)) ∧
    (∀ k, s.bks.bookings.get slot = some k → exec (.readBooking r (some slot)) s = .next (Answered (.readBooking r (some slot)) r .ok
      (flagByte false ++ bookingField k ++ u8 (s.bks.persist (.booking slot)).code) s)) ∧
    exec (.readBooking r none) s = .next (Answered (.readBooking r none) r .badArgument [] s) ∧
    (first < 32 → exec (.listBookings r states first) s = .next (Answered (.listBookings r states first) r .ok
      (listField s.bks.listEntry (found.take 16) ++ optU8 ((found.drop 16).head?.map (·.val))) s)) ∧
    (32 ≤ first → exec (.listBookings r states first) s = .next (Answered (.listBookings r states first) r .badArgument [] s)) ∧
    (1 ≤ count → count ≤ 16 → first + count ≤ 96 → exec (.readParticipant r first count) s =
      .next (Answered (.readParticipant r first count) r .ok ((runOf 96 first count).flatMap s.bks.participantEntry) s)) ∧
    (count = 0 ∨ 16 < count ∨ 96 < first + count → exec (.readParticipant r first count) s =
      .next (Answered (.readParticipant r first count) r .badArgument [] s)) ∧
    (∀ due, s.nextDueMinute = some due → exec (.readClock r) s = .next (Answered (.readClock r) r .ok
      (clockPayload s.msc ++ u16 (due / 86400) ++ u32 (due % 86400)) s)) ∧
    (s.nextDueMinute = none → exec (.readClock r) s = .next (Answered (.readClock r) r .ok
      (clockPayload s.msc ++ [0xFF, 0xFF, 0xFF, 0xFF, 0xFF, 0xFF]) s)) ∧
    exec (.readLines r) s = .next (Answered (.readLines r) r .ok s.linesReport s) ∧
    exec (.identify r) s = .next (Answered (.identify r) r .ok identity s) ∧
    exec (.status r) s = .next (Answered (.status r) r .ok (s.statusReport r.port) s)

/-! ## The floor (chapter 2) -/

/-- A MIC press or release outside VOICE mode, by a seat that takes part (R21, R22, R23, R25, R26, R29). A seat that neither speaks nor waits opens in OPEN
mode when the list has room and no override holds it back; otherwise DENY flashes it refused, QUEUE queues it, and BUMP closes the seat of
the eviction order and opens it, or queues it while it is held back; in REQUEST and AUTO it joins the queue. A queue of 24 flashes it refused, for
1024 units of 1/1024 s (log 4). A press of a speaking seat in TOGGLE closes it and in PUSH-TO-TALK changes nothing, and a press of a waiting seat
withdraws it. A release in PUSH-TO-TALK closes a speaking seat, withdraws a waiting one of origin KEY, and changes nothing for one of origin PORT or
VOICE and for a seat that does neither. The key mode is the one the event carries, the model's choice (log 9), as is that a release in TOGGLE, which the
table bus never sends (R10), changes nothing. The floor hears no key
outside FULL (log 13), and none of a seat that takes no part. -/
def Obligations.MicPressOutsideVoiceMode : Prop :=
  ∀ (x : Seat) (m : KeyMode) (s : State),
    let held := hasPriority (s.flc.role x) = false ∧ s.flc.holds s.settings.priorityPolicy = true
    let opened := { s.flc.seats.get x with selfMuted := false, flash := none }
    let pressed := fun f : Flc => ∃ t, exec (.keyEvent x .mic .press m) s = .next t ∧ FloorBecomes .keyEvent s t f
    let released := fun f : Flc => ∃ t, exec (.keyEvent x .mic .release m) s = .next t ∧ FloorBecomes .keyEvent s t f
    let still := fun edge : KeyEdge => ∃ t, exec (.keyEvent x .mic edge m) s = .next t ∧ FloorStays .keyEvent s t
    let closed := { s.flc with
      speakers := s.flc.speakers.filter fun e => e.seat ≠ x
      overrides := s.flc.overrides.filter fun y => y ≠ x }
    let withdrawn := { s.flc with queue := s.flc.queue.filter fun q => q.seat ≠ x }
    let queued := { s.flc with
      queue := s.flc.queue ++ [⟨x, .key, s.msc.day, s.msc.second⟩]
      seats := s.flc.seats.upd x { s.flc.seats.get x with flash := none } }
    let refused := { s.flc with seats := s.flc.seats.upd x { s.flc.seats.get x with flash := some 1024 } }
    (s.flc.hears = false ∨ s.flc.takesPart x = false → ∀ k edge,
      exec (.keyEvent x k edge m) s = .next (Taken (.keyEvent x k edge m) s)) ∧
    (s.flc.hears = true → s.flc.takesPart x = true → s.flc.mode ≠ .voice →
    (s.flc.speaks x = false → s.flc.waits x = false → s.flc.mode = .openMode → s.flc.speakers.length < s.flc.limit → ¬ held →
      pressed { s.flc with speakers := s.flc.speakers ++ [newEntry s x .key], seats := s.flc.seats.upd x opened }) ∧
    (s.flc.speaks x = false → s.flc.waits x = false → s.flc.mode = .openMode → s.flc.limit ≤ s.flc.speakers.length ∨ held →
      (s.settings.overflow = .deny → pressed refused) ∧
      (s.settings.overflow = .queue ∨ (s.settings.overflow = .bump ∧ held) →
        (s.flc.queue.length < 24 → pressed queued) ∧ (24 ≤ s.flc.queue.length → pressed refused)) ∧
      (s.settings.overflow = .bump → ¬ held → ∀ v, s.flc.victim = some v → pressed { s.flc with
        speakers := (s.flc.speakers.filter fun e => e.seat ≠ v) ++ [newEntry s x .key]
        overrides := s.flc.overrides.filter fun y => y ≠ v
        seats := s.flc.seats.upd x opened })) ∧
    (s.flc.speaks x = false → s.flc.waits x = false → s.flc.mode ≠ .openMode → s.flc.queue.length < 24 → pressed queued) ∧
    (s.flc.speaks x = false → s.flc.waits x = false → s.flc.mode ≠ .openMode → 24 ≤ s.flc.queue.length → pressed refused) ∧
    (s.flc.speaks x = true → m = .toggle → pressed closed) ∧
    (s.flc.speaks x = true → m = .pushToTalk → still .press ∧ released closed) ∧
    (s.flc.speaks x = false → s.flc.waits x = true → pressed withdrawn) ∧
    (∀ q, s.flc.speaks x = false → s.flc.queue.find? (fun d => d.seat = x) = some q → m = .pushToTalk →
      (q.origin = .key → released withdrawn) ∧ (q.origin ≠ .key → still .release)) ∧
    (s.flc.speaks x = false → s.flc.waits x = false → still .release) ∧
    (m = .toggle → still .release)) ∧
    (∀ e, s.flc.speakers.find? (fun d => !d.priority) = some e → s.flc.victim = some e.seat) ∧
    ((∀ e ∈ s.flc.speakers, e.priority = true) →
      (∀ e, s.flc.speakers.find? (fun d => s.flc.role d.seat = .vice) = some e → s.flc.victim = some e.seat) ∧
      ((∀ e ∈ s.flc.speakers, s.flc.role e.seat ≠ .vice) →
        ∀ e, s.flc.speakers.find? (fun d => s.flc.role d.seat = .chair) = some e → s.flc.victim = some e.seat))

/-- The keys of a chair (R23, R30, R31, R32). A PRIORITY press of a CHAIR or VICE seat puts it in the override set, opens it with origin
PRIORITY when it does not speak, after one eviction when the list is full, and takes it from the queue; under CLOSE-ALL it leaves only the
priority entries; it asks for the chime. Its release takes the seat out of the set. A NEXT press opens the head of the queue when the list has
room, and else flashes the pressing seat refused, for 1024 units of 1/1024 s (log 4). From an ORDINARY seat neither press changes anything. -/
def Obligations.KeysOfTheChair : Prop :=
  ∀ (x : Seat) (m : KeyMode) (s : State), s.flc.hears = true → s.flc.takesPart x = true →
    let left := fun l : List SpeakerEntry => if s.settings.priorityPolicy = .closeAll then l.filter (·.priority) else l
    let begun := fun f : Flc => ∃ t, exec (.keyEvent x .priority .press m) s = .next t ∧ FloorBecomes .keyEvent s t f ∧
      SentSome (.keyEvent x .priority .press m) s t (EndsWith .chimeRequest)
    let opened := fun y : Seat => { s.flc.seats.get y with selfMuted := false, flash := none }
    (hasPriority (s.flc.role x) = true → s.flc.speaks x = true → s.flc.waits x = false → x ∉ s.flc.overrides →
      begun { s.flc with overrides := s.flc.overrides ++ [x], speakers := left s.flc.speakers }) ∧
    (hasPriority (s.flc.role x) = true → s.flc.speaks x = false → x ∉ s.flc.overrides → s.flc.speakers.length < s.flc.limit →
      begun { s.flc with
        overrides := s.flc.overrides ++ [x]
        speakers := left (s.flc.speakers ++ [newEntry s x .priority])
        queue := s.flc.queue.filter fun q => q.seat ≠ x
        seats := s.flc.seats.upd x (opened x) }) ∧
    (∀ v, hasPriority (s.flc.role x) = true → s.flc.speaks x = false → x ∉ s.flc.overrides →
      s.flc.limit ≤ s.flc.speakers.length → s.flc.victim = some v →
      begun { s.flc with
        overrides := (s.flc.overrides ++ [x]).filter fun y => y ≠ v
        speakers := left ((s.flc.speakers.filter fun e => e.seat ≠ v) ++ [newEntry s x .priority])
        queue := s.flc.queue.filter fun q => q.seat ≠ x
        seats := s.flc.seats.upd x (opened x) }) ∧
    (∃ t, exec (.keyEvent x .priority .release m) s = .next t ∧
      FloorBecomes .keyEvent s t { s.flc with overrides := s.flc.overrides.filter fun y => y ≠ x }) ∧
    (∀ q rest, hasPriority (s.flc.role x) = true → s.flc.queue = q :: rest → s.flc.speakers.length < s.flc.limit →
      ∃ t, exec (.keyEvent x .next .press m) s = .next t ∧
        FloorBecomes .keyEvent s t { s.flc with
          speakers := s.flc.speakers ++ [newEntry s q.seat (if q.origin = .voice then .voice else .next)]
          queue := s.flc.queue.filter fun d => d.seat ≠ q.seat
          seats := s.flc.seats.upd q.seat (opened q.seat) }) ∧
    (hasPriority (s.flc.role x) = true → s.flc.queue = [] ∨ s.flc.limit ≤ s.flc.speakers.length →
      ∃ t, exec (.keyEvent x .next .press m) s = .next t ∧
        FloorBecomes .keyEvent s t { s.flc with seats := s.flc.seats.upd x { s.flc.seats.get x with flash := some 1024 } }) ∧
    (hasPriority (s.flc.role x) = false → ∀ k : Key, k = .priority ∨ k = .next →
      ∃ t, exec (.keyEvent x k .press m) s = .next t ∧ FloorStays .keyEvent s t)

/-- VOICE mode (R27, R28, R29, R33), for a seat that takes part. A MIC press in TOGGLE and a release in PUSH-TO-TALK close a speaker of an origin other than
VOICE, and any press withdraws a waiting seat of origin PORT. At any other seat a press turns the self-mute on, which closes its entry or withdraws its queue entry
of origin VOICE, or off. The other presses and releases change nothing; the key mode is the one the event carries, the model's choice (log 9). An
onset opens the seat when the list has room and no override holds it back, so under DUCK too, and else queues it; a queue of 24 flashes it refused, for 1024 units of
1/1024 s (log 4); a seat that speaks or waits stays, and the onset of a seat that takes no part (log 13) or is self-muted by then is ignored, the model's choice (log 43).
An end closes the entry of origin VOICE, or withdraws the queue entry of origin VOICE. In the other modes, and outside FULL (log 13), the reports do nothing. -/
def Obligations.VoiceModeMovesTheFloor : Prop :=
  ∀ (x : Seat) (m : KeyMode) (s : State),
    let pressed := fun f : Flc => ∃ t, exec (.keyEvent x .mic .press m) s = .next t ∧ FloorBecomes .keyEvent s t f
    let released := fun f : Flc => ∃ t, exec (.keyEvent x .mic .release m) s = .next t ∧ FloorBecomes .keyEvent s t f
    let still := fun edge : KeyEdge => ∃ t, exec (.keyEvent x .mic edge m) s = .next t ∧ FloorStays .keyEvent s t
    let heard := fun f : Flc => ∃ t, exec (.voiceOnset x) s = .next t ∧ FloorBecomes .voiceReport s t f
    let seatWith := fun t : FlcSeat => s.flc.seats.upd x t
    let closed := { s.flc with
      speakers := s.flc.speakers.filter fun e => e.seat ≠ x
      overrides := s.flc.overrides.filter fun y => y ≠ x }
    let held := hasPriority (s.flc.role x) = false ∧ s.flc.holds s.settings.priorityPolicy = true
    (s.flc.hears = true → s.flc.mode = .voice → s.flc.takesPart x = true →
      ((∃ e ∈ s.flc.speakers, e.seat = x ∧ e.origin ≠ .voice) →
        (m = .toggle → pressed closed ∧ still .release) ∧ (m = .pushToTalk → still .press ∧ released closed)) ∧
      ((∀ e ∈ s.flc.speakers, e.seat = x → e.origin = .voice) → (∃ q ∈ s.flc.queue, q.seat = x ∧ q.origin = .port) →
        pressed { s.flc with queue := s.flc.queue.filter fun q => q.seat ≠ x } ∧ still .release) ∧
      ((∀ e ∈ s.flc.speakers, e.seat = x → e.origin = .voice) → (∀ q ∈ s.flc.queue, q.seat = x → q.origin ≠ .port) →
        still .release ∧
        ((s.flc.seats.get x).selfMuted = true → pressed { s.flc with seats := seatWith { s.flc.seats.get x with selfMuted := false } }) ∧
        ((s.flc.seats.get x).selfMuted = false → s.flc.speaks x = true → s.flc.waits x = false → pressed { closed with
          seats := seatWith { s.flc.seats.get x with selfMuted := true } }) ∧
        ((s.flc.seats.get x).selfMuted = false → s.flc.speaks x = false → pressed { s.flc with
          queue := s.flc.queue.filter fun q => !(q.seat = x && q.origin = .voice)
          seats := seatWith { s.flc.seats.get x with selfMuted := true } })) ∧
      ((s.flc.seats.get x).selfMuted = false →
        (s.flc.speaks x = true ∨ s.flc.waits x = true → ∃ t, exec (.voiceOnset x) s = .next t ∧ FloorStays .voiceReport s t) ∧
        (s.flc.speaks x = false → s.flc.waits x = false →
          (s.flc.speakers.length < s.flc.limit → ¬ held → heard { s.flc with
            speakers := s.flc.speakers ++ [newEntry s x .voice]
            seats := seatWith { s.flc.seats.get x with selfMuted := false, flash := none } }) ∧
          (s.flc.limit ≤ s.flc.speakers.length ∨ held → s.flc.queue.length < 24 → heard { s.flc with
            queue := s.flc.queue ++ [⟨x, .voice, s.msc.day, s.msc.second⟩]
            seats := seatWith { s.flc.seats.get x with flash := none } }) ∧
          (s.flc.limit ≤ s.flc.speakers.length ∨ held → 24 ≤ s.flc.queue.length → heard { s.flc with
            seats := seatWith { s.flc.seats.get x with flash := some 1024 } })))) ∧
    (s.flc.hears = true → s.flc.mode = .voice → (∃ e ∈ s.flc.speakers, e.seat = x ∧ e.origin = .voice) → ∃ t, exec (.voiceEnd x) s = .next t ∧
      FloorBecomes .voiceReport s t closed) ∧
    (s.flc.hears = true → s.flc.mode = .voice → (∀ e ∈ s.flc.speakers, e.seat = x → e.origin ≠ .voice) → ∃ t, exec (.voiceEnd x) s = .next t ∧
      FloorBecomes .voiceReport s t { s.flc with queue := s.flc.queue.filter fun q => !(q.seat = x && q.origin = .voice) }) ∧
    (s.flc.hears = false ∨ s.flc.mode ≠ .voice → exec (.voiceOnset x) s = .next (Taken (.voiceOnset x) s) ∧
      exec (.voiceEnd x) s = .next (Taken (.voiceEnd x) s)) ∧
    (s.flc.takesPart x = false ∨ (s.flc.seats.get x).selfMuted = true → exec (.voiceOnset x) s = .next (Taken (.voiceOnset x) s))

/-- A second event in FULL takes one second from every entry with seconds left and no priority, tells the Screen Router what is left, and
brings the expiry of an entry that reached 0 (R34). That the expiry is a step of its own, sent by the second event as a report, and that the
second event leaves the list merely counted, is the model's choice (log 20). The expiry of the speech timers acts on the entries at 0 seconds that have no priority
and are not in overtime: under WARN they go to overtime, under CLOSE their seats are closed (R35). The expiry of a refusal flash ends it (R29). -/
def Obligations.FloorTimersExpire : Prop :=
  ∀ (x : Seat) (s : State),
    let counted := s.flc.speakers.map fun e => match e.remaining, e.priority with
      | some (n + 1), false => { e with remaining := some n }
      | _, _ => e
    (s.settings.expiryAction = .warn → ∃ t, exec .speechTimerExpiry s = .next t ∧
      FloorBecomes .secondEvent s t { s.flc with speakers := s.flc.speakers.map fun e =>
        { e with overtime := e.overtime || (e.remaining = some 0 && !e.priority) } }) ∧
    (s.settings.expiryAction = .close → ∃ t, exec .speechTimerExpiry s = .next t ∧
      FloorBecomes .secondEvent s t { s.flc with
        speakers := s.flc.speakers.filter fun e => !(s.flc.speakers.any fun d => d.due && d.seat = e.seat)
        overrides := s.flc.overrides.filter fun y => !(s.flc.speakers.any fun d => d.due && d.seat = y) }) ∧
    (∃ t, exec (.refusalFlashExpiry x) s = .next t ∧
      FloorBecomes .flashExpiry s t { s.flc with seats := s.flc.seats.upd x { s.flc.seats.get x with flash := none } }) ∧
    (s.msc.clock ≠ .lost → s.msc.second < 86399 → (s.msc.second + 1) % 60 ≠ 0 →
      (s.flc.power ≠ some .full → exec .secondEvent s = .next { s with msc := { s.msc with second := s.msc.second + 1 } }) ∧
      (s.flc.power = some .full → counted ≠ s.flc.speakers → ∃ t, exec .secondEvent s = .next t ∧
        t = { s with msc := { s.msc with second := s.msc.second + 1 }, flc := t.flc, flight := t.flight } ∧
        FloorTold .secondEvent s t ∧ t.flc.speakers = counted ∧ t.flc.queue = s.flc.queue ∧ t.flc.overrides = s.flc.overrides ∧
        .speechRemainingReport (counted.map fun e => (e.seat, e.remaining)) ∈ t.flight ∧
        ((∃ e ∈ counted, e.remaining = some 0 ∧ e.overtime = false ∧ e.priority = false) → .speechTimerExpiry ∈ t.flight)))

/-- A seat that comes ONLINE is held as ONLINE, is enabled when it arrives new in an OPEN-ROOM, and its eligibility goes to the Voice
Detector; a seat that is lost leaves both collections and the override set (R20, R40, R42). The mute switch is held, and a deleted
participant's seats have none (R36, R125). A presence report that crossed the report of SLEEP is taken as any other, the model's choice (log 55). -/
def Obligations.ReportsAtTheFloor : Prop :=
  ∀ (x : Seat) (was : Presence) (b : Bool) (p : PIdx) (s : State),
    (∃ t, exec (.presenceReportAtFlc x was .online) s = .next t ∧
      FloorBecomes .report s t { s.flc with seats := s.flc.seats.upd x { s.flc.seats.get x with
        online := true
        enabled := (s.flc.seats.get x).enabled || (was = .absent && s.flc.seating = .openRoom) } } ∧
      SentSome (.presenceReportAtFlc x was .online) s t (EndsWith (.eligibilityReport x
        ((t.flc.seats.get x).enabled && !(t.flc.seats.get x).selfMuted)))) ∧
    (∃ t, exec (.presenceReportAtFlc x .online .offline) s = .next t ∧
      FloorBecomes .report s t { s.flc with
        speakers := s.flc.speakers.filter fun e => e.seat ≠ x
        queue := s.flc.queue.filter fun q => q.seat ≠ x
        overrides := s.flc.overrides.filter fun y => y ≠ x
        seats := s.flc.seats.upd x { s.flc.seats.get x with selfMuted := false, flash := none, online := false } }) ∧
    (∃ t, exec (.muteSwitchAtFlc b) s = .next t ∧ FloorBecomes .report s t { s.flc with muteSwitch := b }) ∧
    (∃ t, exec (.participantDeletionReport p) s = .next t ∧ FloorFrame s t ∧ FloorTold .report s t ∧ t.settings = s.settings ∧
      (∀ y, (t.flc.seats.get y).participant =
        if (s.flc.seats.get y).participant = some p then none else (s.flc.seats.get y).participant) ∧
      t.flc.speakers = s.flc.speakers ∧ t.flc.queue = s.flc.queue)

/-- What a meeting makes of the floor (R43, R44, R45, R20). An activation empties the floor, gives every seat its role, participant and enabled field
by the plan, and puts the booking's mode and limit, or the default ones, in force. An ending empties it, takes every role and participant, and puts
the default mode and limit in force. An edit gives every seat its role under the new plan, for a seat outside both plans by the model's choice (log
12), and takes the floor from a seat dropped from a list that is not empty: under LOCKED it is disabled, under FREE it keeps its enabled field and
loses its participant. An edit that empties the list enables as an activation with an empty list does; one that fills an empty list disables every
other seat under LOCKED. A seating report in a meeting is held; outside one a change disables every seat, or enables every ONLINE one. Whether a
meeting is on is what the report says, fixed as it is sent, the model's choice (log 58). -/
def Obligations.MeetingsReachTheFloor : Prop :=
  ∀ (a : Activation) (plan : SeatPlan) (policy : LockPolicy) (seating : Seating) (s : State),
    (∃ t, exec (.activationReport a) s = .next t ∧ FloorFrame s t ∧ FloorTold .report s t ∧ t.settings = s.settings ∧
      t.flc.speakers = [] ∧ t.flc.queue = [] ∧ t.flc.overrides = [] ∧
      t.flc.mode = a.mode.getD s.settings.defaultMode ∧ t.flc.limit = a.limit.getD s.settings.defaultLimit ∧
      t.flc.seating = a.seating ∧ t.flc.plan = a.plan ∧
      ∀ x, (t.flc.seats.get x).selfMuted = false ∧ (t.flc.seats.get x).flash = none ∧
        (t.flc.seats.get x).role =
          (if a.plan.chair = some x then .chair else if a.plan.vice = some x then .vice else .ordinary) ∧
        (t.flc.seats.get x).participant = (a.plan.attendees.find? fun d => d.1 = x).map (·.2) ∧
        (t.flc.seats.get x).online = (s.flc.seats.get x).online ∧
        (a.plan.attendees = [] → (t.flc.seats.get x).enabled =
          ((s.flc.seats.get x).online || (a.policy = .free && (s.flc.seats.get x).enabled))) ∧
        (a.plan.attendees ≠ [] → (t.flc.seats.get x).enabled =
          (a.plan.names x || (a.policy = .free && (s.flc.seats.get x).enabled)))) ∧
    (∃ t, exec (.endingReport policy seating) s = .next t ∧ FloorFrame s t ∧ FloorTold .report s t ∧ t.settings = s.settings ∧
      t.flc.speakers = [] ∧ t.flc.queue = [] ∧ t.flc.overrides = [] ∧ t.flc.mode = s.settings.defaultMode ∧
      t.flc.limit = s.settings.defaultLimit ∧ t.flc.seating = seating ∧ t.flc.plan = {} ∧
      ∀ x, (t.flc.seats.get x).selfMuted = false ∧ (t.flc.seats.get x).flash = none ∧
        (t.flc.seats.get x).role = .ordinary ∧ (t.flc.seats.get x).participant = none ∧
        (t.flc.seats.get x).enabled = (policy = .free && (s.flc.seats.get x).online)) ∧
    (∃ t, exec (.attendeeEditReport plan policy) s = .next t ∧ FloorFrame s t ∧ FloorTold .report s t ∧ t.settings = s.settings ∧ t.flc.plan = plan ∧
      ∀ x, (t.flc.seats.get x).role = plan.roleOf x ∧
        (plan.lists x = true → (t.flc.seats.get x).participant = plan.participantOf x) ∧
        (plan.lists x = true → s.flc.plan.lists x = false → (t.flc.seats.get x).enabled = true) ∧
        (policy = .locked → plan.attendees ≠ [] → plan.names x = false → s.flc.plan.lists x = true →
          (t.flc.seats.get x).enabled = false ∧ (∀ e ∈ t.flc.speakers, e.seat ≠ x) ∧ (∀ q ∈ t.flc.queue, q.seat ≠ x)) ∧
        (policy = .free → plan.attendees ≠ [] → plan.names x = false → s.flc.plan.lists x = true →
          (t.flc.seats.get x).enabled = (s.flc.seats.get x).enabled ∧ (t.flc.seats.get x).participant = none ∧
          (t.flc.seats.get x).selfMuted = (s.flc.seats.get x).selfMuted ∧ (∀ e ∈ t.flc.speakers, e.seat ≠ x) ∧
          (∀ q ∈ t.flc.queue, q.seat ≠ x) ∧ x ∉ t.flc.overrides) ∧
        (plan.attendees = [] → s.flc.plan.attendees ≠ [] → t.flc.seating = .openRoom ∧ (t.flc.seats.get x).participant = none ∧
          (t.flc.seats.get x).enabled = ((s.flc.seats.get x).online || (policy = .free && (s.flc.seats.get x).enabled))) ∧
        (plan.attendees ≠ [] → s.flc.plan.attendees = [] → (policy = .locked → t.flc.seating = .meeting) ∧
          (policy = .free → t.flc.seating = s.flc.seating) ∧
          (plan.names x = false → (t.flc.seats.get x).enabled = (policy = .free && (s.flc.seats.get x).enabled)))) ∧
    (∃ t, exec (.seatingReport seating true) s = .next t ∧ FloorBecomes .report s t { s.flc with seating := seating }) ∧
    (∃ t, exec (.seatingReport s.flc.seating false) s = .next t ∧ FloorBecomes .report s t s.flc) ∧
    (s.flc.seating ≠ .lockedRoom → ∃ t, exec (.seatingReport .lockedRoom false) s = .next t ∧ FloorFrame s t ∧ FloorTold .report s t ∧
      t.settings = s.settings ∧ t.flc.seating = .lockedRoom ∧ t.flc.speakers = [] ∧ t.flc.queue = [] ∧ t.flc.overrides = [] ∧
      ∀ x, t.flc.seats.get x = { s.flc.seats.get x with
        enabled := false, selfMuted := false, flash := none, ring := (t.flc.seats.get x).ring }) ∧
    (s.flc.seating ≠ .openRoom → ∃ t, exec (.seatingReport .openRoom false) s = .next t ∧
      FloorBecomes .report s t { s.flc with
        seating := .openRoom
        seats := Tab.gen fun x => if (s.flc.seats.get x).online && !(s.flc.seats.get x).enabled then
            { s.flc.seats.get x with enabled := true, role := .ordinary, participant := none }
          else s.flc.seats.get x })

/-- GRANT opens an enabled ONLINE seat with origin PORT and GRANT-NEXT the head of the queue, when the list has room and no override
holds them back; ADD-REQUEST queues such a seat at the tail and answers its position (R46, R47, R48). -/
def Obligations.GrantsAndRequests : Prop :=
  ∀ (r : CmdRef) (x : Seat) (s : State), s.pcu.power = some .full →
    (s.flc.takesPart x = true → s.flc.speaks x = false → s.flc.speakers.length < s.flc.limit →
      (hasPriority (s.flc.role x) = true ∨ s.flc.holds s.settings.priorityPolicy = false) →
      ∃ t, exec (.grant r (some x)) s = .next t ∧
        FloorBecomes .command s t { s.flc with
          speakers := s.flc.speakers ++ [newEntry s x .port]
          queue := s.flc.queue.filter fun q => q.seat ≠ x
          seats := s.flc.seats.upd x { s.flc.seats.get x with selfMuted := false, flash := none } } ∧
        SentSome (.grant r (some x)) s t (EndsWith (.blockResult r .ok []))) ∧
    (∀ q rest, s.flc.queue = q :: rest → s.flc.speakers.length < s.flc.limit →
      (hasPriority (s.flc.role q.seat) = true ∨ s.flc.holds s.settings.priorityPolicy = false) →
      ∃ t, exec (.grantNext r) s = .next t ∧
        FloorBecomes .command s t { s.flc with
          speakers := s.flc.speakers ++ [newEntry s q.seat (if q.origin = .voice then .voice else .port)]
          queue := s.flc.queue.filter fun d => d.seat ≠ q.seat
          seats := s.flc.seats.upd q.seat { s.flc.seats.get q.seat with selfMuted := false, flash := none } } ∧
        SentSome (.grantNext r) s t (EndsWith (.blockResult r .ok (u8 q.seat.val)))) ∧
    (s.flc.takesPart x = true → s.flc.speaks x = false → s.flc.waits x = false → s.flc.queue.length < 24 →
      ∃ t, exec (.addRequest r (some x)) s = .next t ∧
        FloorBecomes .command s t { s.flc with
          queue := s.flc.queue ++ [⟨x, .port, s.msc.day, s.msc.second⟩]
          seats := s.flc.seats.upd x { s.flc.seats.get x with flash := none } } ∧
        (promotes s.flc.mode s.settings.overflow = false →
          SentSome (.addRequest r (some x)) s t (EndsWith (.blockResult r .ok (u8 (s.flc.queue.length + 1))))))

/-- CLOSE closes a speaker or withdraws a waiting seat, CLOSE-SPEAKERS empties the list and ends every override, and CLEAR-QUEUE empties
the queue; the two answer how many entries they removed (R49). -/
def Obligations.ClosingCommands : Prop :=
  ∀ (r : CmdRef) (x : Seat) (s : State), s.pcu.power = some .full →
    (s.flc.speaks x = true → ∃ t, exec (.close r (some x)) s = .next t ∧
      FloorBecomes .command s t { s.flc with
        speakers := s.flc.speakers.filter fun e => e.seat ≠ x
        overrides := s.flc.overrides.filter fun y => y ≠ x } ∧
      SentSome (.close r (some x)) s t (EndsWith (.blockResult r .ok []))) ∧
    (s.flc.speaks x = false → s.flc.waits x = true → ∃ t, exec (.close r (some x)) s = .next t ∧
      FloorBecomes .command s t { s.flc with queue := s.flc.queue.filter fun q => q.seat ≠ x } ∧
      SentSome (.close r (some x)) s t (EndsWith (.blockResult r .ok []))) ∧
    (s.flc.speaks x = false → s.flc.waits x = false →
      exec (.close r (some x)) s = .next (Answered (.close r (some x)) r .notFound [] s)) ∧
    (∃ t, exec (.closeSpeakers r) s = .next t ∧ FloorBecomes .command s t { s.flc with speakers := [], overrides := [] } ∧
      SentSome (.closeSpeakers r) s t (EndsWith (.blockResult r .ok (u8 s.flc.speakers.length)))) ∧
    (∃ t, exec (.clearQueue r) s = .next t ∧ FloorBecomes .command s t { s.flc with queue := [] } ∧
      SentSome (.clearQueue r) s t (EndsWith (.blockResult r .ok (u8 s.flc.queue.length))))

/-- The floor settings (R23, R38, R39, R50, R51, R52). SET-FLOOR-MODE puts a mode in force, with scope DEFAULT as the default too; an entry to
VOICE empties the queue, and a departure from it removes the VOICE entries of the queue, gives VOICE speakers the origin AUTO and clears every
self-mute. SET-OPEN-LIMIT brings its number into 1 to 8; a limit the list does not exceed evicts nobody, and a lower one evicts down to it, the
oldest entries without priority first. SET-OVERFLOW and SET-SPEECH-LIMIT set their settings, and a policy of CLOSE-ALL during an override closes
the speakers without priority. -/
def Obligations.FloorSettingCommands : Prop :=
  ∀ (r : CmdRef) (s : State), s.pcu.power = some .full →
    (∀ m : FloorMode, m ≠ .voice → s.flc.mode ≠ .voice → ∀ sc : Scope, ∃ t, exec (.setFloorMode r (some m) (some sc)) s = .next t ∧
      FloorBecomesUnder .command s t (if sc = .default then { s.settings with defaultMode := m } else s.settings) { s.flc with mode := m } ∧
      SentSome (.setFloorMode r (some m) (some sc)) s t (EndsWith (.blockResult r .ok []))) ∧
    (∀ m : FloorMode, m ≠ .voice → s.flc.mode = .voice → ∀ sc : Scope, ∃ t, exec (.setFloorMode r (some m) (some sc)) s = .next t ∧
      FloorBecomesUnder .command s t (if sc = .default then { s.settings with defaultMode := m } else s.settings) { s.flc with
        mode := m
        queue := s.flc.queue.filter fun q => q.origin ≠ .voice
        speakers := s.flc.speakers.map fun e => if e.origin = .voice then { e with origin := .auto } else e
        seats := Tab.gen fun x => { s.flc.seats.get x with selfMuted := false } } ∧
      SentSome (.setFloorMode r (some m) (some sc)) s t (EndsWith (.blockResult r .ok []))) ∧
    (s.flc.mode ≠ .voice → ∃ t, exec (.setFloorMode r (some .voice) (some .now)) s = .next t ∧
      FloorBecomesUnder .command s t s.settings { s.flc with mode := .voice, queue := [] }) ∧
    (∀ (n : Int) (sc : Scope), (s.flc.speakers.length : Int) ≤ clampInt 1 8 n →
      ∃ t, exec (.setOpenLimit r (some n) (some sc)) s = .next t ∧
        FloorBecomesUnder .command s t (if sc = .default then { s.settings with defaultLimit := (clampInt 1 8 n).toNat } else s.settings)
          { s.flc with limit := (clampInt 1 8 n).toNat } ∧
        SentSome (.setOpenLimit r (some n) (some sc)) s t (EndsWith (if 1 ≤ n ∧ n ≤ 8 then .blockResult r .ok []
          else .blockResult r .clamped (u16 (clampInt 1 8 n).toNat)))) ∧
    (∀ (n : Int) (sc : Scope), FloorSound s.flc → clampInt 1 8 n < (s.flc.speakers.length : Int) →
      ∃ t, exec (.setOpenLimit r (some n) (some sc)) s = .next t ∧ FloorFrame s t ∧ FloorTold .command s t ∧
        t.settings = (if sc = .default then { s.settings with defaultLimit := (clampInt 1 8 n).toNat } else s.settings) ∧
        t.flc.limit = (clampInt 1 8 n).toNat ∧ t.flc.mode = s.flc.mode ∧ t.flc.queue = s.flc.queue ∧
        t.flc.speakers.length = (clampInt 1 8 n).toNat ∧ t.flc.speakers.Sublist s.flc.speakers ∧
        (t.flc.speakers.filter fun e => !e.priority) <:+ (s.flc.speakers.filter fun e => !e.priority) ∧
        ((∃ e ∈ t.flc.speakers, e.priority = false) → ∀ e ∈ s.flc.speakers, e ∉ t.flc.speakers → e.priority = false) ∧
        SentSome (.setOpenLimit r (some n) (some sc)) s t (EndsWith (if 1 ≤ n ∧ n ≤ 8 then .blockResult r .ok []
          else .blockResult r .clamped (u16 (clampInt 1 8 n).toNat)))) ∧
    (∀ p : Overflow, ∃ t, exec (.setOverflow r (some p)) s = .next t ∧
      FloorBecomesUnder .command s t { s.settings with overflow := p } s.flc) ∧
    (∀ p : PriorityPolicy, p ≠ s.settings.priorityPolicy → ∃ t, exec (.setPriorityPolicy r (some p)) s = .next t ∧
      FloorBecomesUnder .command s t { s.settings with priorityPolicy := p } (if p = .closeAll ∧ s.flc.overrides ≠ [] then
        { s.flc with speakers := s.flc.speakers.filter (·.priority) } else s.flc)) ∧
    (∀ (n l : Int) (a : ExpiryAction), ∃ t, exec (.setSpeechLimit r (some n) (some l) (some a)) s = .next t ∧
      FloorBecomesUnder .command s t
        { s.settings with
          speechLimit := if n ≤ 0 then 0 else (clampInt 10 3600 n).toNat
          warningLead := (clampInt 0 120 l).toNat
          expiryAction := a } s.flc)

/-- ENABLE-SEAT enables a seat outside a LOCKED-ROOM, or disables it and takes the floor from it; SET-ROLE gives a seat its role, and
CHAIR or VICE leaves the seat that held it ORDINARY (R40, R53, R54). -/
def Obligations.SeatSettingCommands : Prop :=
  ∀ (r : CmdRef) (x : Seat) (s : State), s.pcu.power = some .full →
    (s.flc.seating ≠ .lockedRoom → ∃ t, exec (.enableSeat r (some x) (some true)) s = .next t ∧
      FloorBecomes .command s t { s.flc with seats := s.flc.seats.upd x { s.flc.seats.get x with enabled := true } }) ∧
    (s.flc.seating = .lockedRoom → exec (.enableSeat r (some x) (some true)) s =
      .next (Answered (.enableSeat r (some x) (some true)) r .state [] s)) ∧
    ((s.flc.seats.get x).enabled = true → ∃ t, exec (.enableSeat r (some x) (some false)) s = .next t ∧
      FloorBecomes .command s t { s.flc with
        speakers := s.flc.speakers.filter fun e => e.seat ≠ x
        queue := s.flc.queue.filter fun q => q.seat ≠ x
        overrides := s.flc.overrides.filter fun y => y ≠ x
        seats := s.flc.seats.upd x { s.flc.seats.get x with enabled := false, selfMuted := false, flash := none } }) ∧
    (∀ ro : Role, ∃ t, exec (.setRole r (some x) (some ro) .keep) s = .next t ∧ FloorFrame s t ∧ FloorTold .command s t ∧ t.settings = s.settings ∧
      (t.flc.seats.get x).role = ro ∧
      (∀ y, y ≠ x → (t.flc.seats.get y).role =
        if hasPriority ro = true ∧ (s.flc.seats.get y).role = ro then .ordinary else (s.flc.seats.get y).role) ∧
      (∀ y, (t.flc.seats.get y).participant = (s.flc.seats.get y).participant ∧
        (t.flc.seats.get y).enabled = (s.flc.seats.get y).enabled ∧ (t.flc.seats.get y).online = (s.flc.seats.get y).online) ∧
      SentSome (.setRole r (some x) (some ro) .keep) s t (EndsWith (.blockResult r .ok [])))

/-- After any floor change every seat's ring state is the first case of R36 that holds, and a seat whose ring state differs from the one before
is reported to the Table Bus Controller. -/
def Obligations.RingsFollowTheTable : Prop :=
  ∀ (cause : FloorCause) (s0 s1 : State) (x : Seat),
    let t := State.floorChange cause s0 s1
    let seat := t.flc.seats.get x
    let muted := t.flc.muteSwitch = true ∨ (seat.selfMuted = true ∧ seat.enabled = true)
    let warned := fun e : SpeakerEntry => e.overtime = true ∨
      (t.settings.warningLead ≠ 0 ∧ ∃ n, e.remaining = some n ∧ n ≤ t.settings.warningLead)
    (muted → seat.ring = .muted) ∧
    (¬ muted → seat.flash ≠ none → seat.ring = .refused) ∧
    (¬ muted → seat.flash = none → ∀ e, t.flc.speakers.find? (fun d => d.seat = x) = some e →
      (warned e → seat.ring = .liveWarn) ∧ (¬ warned e → seat.ring = .live)) ∧
    (¬ muted → seat.flash = none → t.flc.speaks x = false →
      (∀ q rest, t.flc.queue = q :: rest → q.seat = x → seat.ring = .head) ∧
      (∀ q rest, t.flc.queue = q :: rest → q.seat ≠ x → t.flc.waits x = true → seat.ring = .queued) ∧
      (t.flc.waits x = false → seat.ring = .off)) ∧
    (seat.ring ≠ (s0.flc.seats.get x).ring → .ringChange x ∈ t.flight)

/-- Promotion in a promoting mode opens heads one after another at the tail of the list, each while the list has room and the override
hold does not keep it back, VOICE heads with origin VOICE and others with AUTO; it ends when the queue is empty, the list is full, or the hold
keeps back a head without priority. A floor change that moved the list, the queue, the limit, the mode, the overflow policy or the override
set leaves the floor where promotion ends (R21, R24, R33). And every floor change sends behind what was in flight, once each, the results that R37's
table asks for and no others: the seats, priority marks, override fact and policy to the Mix Engine, the floor to the Screen Router, the empty list to LIVE-LAMP,
the emptiness of both collections to the Power and Clock Unit when it differs from the answer last given, which is then the answer held, eligibility, ring and
enabled changes seat by seat, and one FLOOR notice. That a change of origins alone sends the notice and no more is the model's choice (log 46). -/
def Obligations.PromotionOpensHeads : Prop :=
  (∀ (e : FloorEnv) (st : Settings) (f : Flc), promotes f.mode st.overflow = true → (f.queue.map (·.seat)).Nodup →
    PromotionDone st.priorityPolicy (f.promote e st) ∧
    ∃ n, n ≤ f.queue.length ∧ (f.promote e st).queue = f.queue.drop n ∧
      (f.promote e st).speakers = f.speakers ++ (f.queue.take n).map (fun q =>
        { seat := q.seat, origin := if q.origin = .voice then .voice else .auto, day := e.day, second := e.second
          remaining := if hasPriority (f.role q.seat) || e.speechLimit = 0 then none else some e.speechLimit
          priority := hasPriority (f.role q.seat), overtime := false }) ∧
      (0 < n → f.speakers.length + n ≤ f.limit) ∧
      (f.holds st.priorityPolicy = true → ∀ q ∈ f.queue.take n, hasPriority (f.role q.seat) = true)) ∧
  (∀ (cause : FloorCause) (s0 s1 : State), promotes s1.flc.mode s1.settings.overflow = true →
    s0.flc.speakers.map SpeakerEntry.still ≠ s1.flc.speakers.map SpeakerEntry.still ∨ s0.flc.queue ≠ s1.flc.queue ∨
      s0.flc.limit ≠ s1.flc.limit ∨ s0.flc.mode ≠ s1.flc.mode ∨ s0.settings.overflow ≠ s1.settings.overflow ∨
      s0.flc.overrides ≠ s1.flc.overrides →
    PromotionDone s1.settings.priorityPolicy (State.floorChange cause s0 s1).flc) ∧
  (∀ (cause : FloorCause) (s0 s1 : State),
    let t := State.floorChange cause s0 s1
    (t.flc.emptyTold = true ↔ t.flc.speakers = [] ∧ t.flc.queue = []) ∧
    ∃ out, t.flight = s1.flight ++ out ∧ out.Nodup ∧ ∀ i, i ∈ out ↔ FloorReports cause s1.flc.emptyTold s0 t i)

/-! ## The mix engine (chapter 3) -/

/-- One sample period (R14, R66, R67, R68, R69, R70, R72, R75, R83). Of the running engine the program send is the rounded, saturated sum of
every seat's product, and the feed of an ONLINE seat takes the products of the seats outside its exclusion set and the remote return; a
saturated output sets its clip flag, and the peaks keep the largest magnitudes. A sample counts only from a seat ONLINE at the table bus while audio
is carried (log 35), and only there a feed goes out; the detector keeps each seat's block peak. No target, applied code or multiplier
moves. A silent engine sends 0 and forms no feed (R73). A block with its 48 periods ends before the next period (log 36). -/
def Obligations.OutputsOfASamplePeriod : Prop :=
  ∀ (mics : List (Seat × Sample)) (remote : Option Sample) (s : State),
    let carried := fun x : Seat => s.carriesAudio && (s.tbc.seats.get x).presence = .online
    let heard := fun x : Seat => (if (s.mix.seats.get x).online && carried x then micOf mics x else 0) * ((s.mix.seats.get x).mult : Int)
    let far := (remote.map BitVec.toInt).getD 0
    let sum := (allSeats.map heard).sum
    let feed := fun x : Seat => rnd14 (rnd14 (((allSeats.filter fun j => !excluded s.mix.radius x j).map heard).sum
      + far * (s.mix.remoteMult : Int)) * ((s.mix.seats.get x).level : Int))
    (s.pcu.audio = .running → s.vdt.samples < 48 → ∃ t, exec (.samplePeriod mics remote) s = .next t ∧
      t = { s with mix := t.mix, vdt := t.vdt, tbc := t.tbc } ∧
      (-8388608 ≤ t.mix.programSend ∧ t.mix.programSend ≤ 8388607) ∧
      (s.engineRuns = true →
        t.mix.programSend = sat24 (rnd14 sum) ∧ t.mix.programClip = (s.mix.programClip || sat24 (rnd14 sum) ≠ rnd14 sum) ∧
        t.mix.programPeak = max s.mix.programPeak (sat24 (rnd14 sum)).natAbs ∧ t.mix.remotePeak = max s.mix.remotePeak far.natAbs ∧
        ∀ x, ((s.mix.seats.get x).online = false → (t.mix.seats.get x).feed = none ∧
            (t.mix.seats.get x).feedClip = (s.mix.seats.get x).feedClip) ∧
          ((s.mix.seats.get x).online = true → (t.mix.seats.get x).feed = some (sat24 (feed x)) ∧
            (t.mix.seats.get x).feedClip = ((s.mix.seats.get x).feedClip || sat24 (feed x) ≠ feed x))) ∧
      (s.engineRuns = false → t.mix.programSend = 0 ∧ t.mix.programClip = s.mix.programClip ∧
        t.mix.programPeak = s.mix.programPeak ∧ t.mix.remotePeak = s.mix.remotePeak ∧
        ∀ x, (t.mix.seats.get x).feed = none ∧ (t.mix.seats.get x).feedClip = (s.mix.seats.get x).feedClip) ∧
      (∀ x, (t.mix.seats.get x).applied = (s.mix.seats.get x).applied ∧ (t.mix.seats.get x).target = (s.mix.seats.get x).target ∧
        (t.mix.seats.get x).mult = (s.mix.seats.get x).mult ∧ (t.mix.seats.get x).online = (s.mix.seats.get x).online) ∧
      t.tbc = { s.tbc with seats := t.tbc.seats } ∧
      (∀ x, t.tbc.seats.get x = { s.tbc.seats.get x with feed := if carried x then (t.mix.seats.get x).feed else none }) ∧
      t.vdt.samples = s.vdt.samples + 1 ∧ ∀ x, t.vdt.seats.get x = { s.vdt.seats.get x with
        peak := max (s.vdt.seats.get x).peak (if (s.vdt.seats.get x).online && carried x then (micOf mics x).natAbs else 0) }) ∧
    (s.pcu.audio = .running → 48 ≤ s.vdt.samples → ∃ u, exec .block s = .next u ∧ u.vdt.samples = 0 ∧
      exec (.samplePeriod mics remote) s = exec (.samplePeriod mics remote) u) ∧
    (s.pcu.audio ≠ .running → ∃ t, exec (.samplePeriod mics remote) s = .next t ∧ t = { s with mix := t.mix, tbc := t.tbc } ∧
      t.mix.programSend = 0 ∧ ∀ x, (t.mix.seats.get x).feed = none ∧ (t.tbc.seats.get x).feed = none)

/-- No seat hears itself or the seats of its exclusion set: two sample periods whose microphones agree outside the exclusion set of a
seat give that seat the same feed (R70, R72). -/
def Obligations.FeedHearsNoExcludedSeat : Prop :=
  ∀ (mics mics' : List (Seat × Sample)) (remote : Option Sample) (x : Seat) (s t t' : State), s.engineRuns = true →
    (∀ j, excluded s.mix.radius x j = false → micOf mics j = micOf mics' j) →
    exec (.samplePeriod mics remote) s = .next t → exec (.samplePeriod mics' remote) s = .next t' →
    (t.mix.seats.get x).feed = (t'.mix.seats.get x).feed

/-- A ramp tick (R63, R65, R71): every applied code takes one step toward its target and stays there once it is reached, the
multipliers follow the codes, no code leaves its range, and the remote gain and exclusion radius in force are taken; the targets do not
move. -/
def Obligations.RampTickMovesEveryCode : Prop :=
  ∀ s : State, (s.engineRuns = false → exec .rampTick s = .next s) ∧
    (s.engineRuns = true → ∃ t, exec .rampTick s = .next t ∧ t = { s with mix := t.mix } ∧
      t.mix.remoteMult = multiplier s.settings.remoteGain ∧ t.mix.radius = s.settings.exclusion ∧ t.mix.programSend = s.mix.programSend ∧
      ∀ x, (t.mix.seats.get x).target = (s.mix.seats.get x).target ∧
        (t.mix.seats.get x).mult = multiplier (t.mix.seats.get x).applied ∧
        (t.mix.seats.get x).level = multiplier (.code (s.mix.levelCode s.settings x)) ∧
        ((s.mix.seats.get x).applied = (s.mix.seats.get x).target → (t.mix.seats.get x).applied = (s.mix.seats.get x).target) ∧
        (∀ n, (s.mix.seats.get x).applied = .mute → (s.mix.seats.get x).target = .code n →
          (t.mix.seats.get x).applied = .code (max (-160) (n - 20))) ∧
        (∀ a, (s.mix.seats.get x).applied = .code a → (s.mix.seats.get x).target = .mute →
          (t.mix.seats.get x).applied = if -160 ≤ a - 8 then .code (a - 8) else .mute) ∧
        (∀ a n, (s.mix.seats.get x).applied = .code a → (s.mix.seats.get x).target = .code n → a < n →
          (t.mix.seats.get x).applied = .code (min n (a + 2))) ∧
        (∀ a n, (s.mix.seats.get x).applied = .code a → (s.mix.seats.get x).target = .code n → n < a →
          (t.mix.seats.get x).applied = .code (max n (a - 8))) ∧
        (gainInRange (s.mix.seats.get x).target → gainInRange (s.mix.seats.get x).applied → gainInRange (t.mix.seats.get x).applied))

/-- From any code in range a ramp reaches any target in range within 92 ticks and stays there: the longest ramp is the rise from −160 to
24 (R63). -/
def Obligations.RampReachesItsTarget : Prop :=
  ∀ (target applied : Gain) (n : Nat), gainInRange target → gainInRange applied → 92 ≤ n → rampRun target n applied = target

/-- The multiplier of a gain code and the threshold value of a threshold setting are the integers nearest to 16384 × 10^(a/40) and to
8388608 × 10^(θ/40), said over the 40th powers so that no root is taken (R65, R84). -/
def Obligations.LevelsAreTheNearestIntegers : Prop :=
  (∀ a : Int, -160 ≤ a → a ≤ 24 →
    (2 * multiplier (.code a) - 1) ^ 40 * 10 ^ (-a).toNat ≤ 32768 ^ 40 * 10 ^ a.toNat ∧
    32768 ^ 40 * 10 ^ a.toNat < (2 * multiplier (.code a) + 1) ^ 40 * 10 ^ (-a).toNat) ∧
  (∀ a : Int, -120 ≤ a → a ≤ -12 →
    (2 * thresholdValue a - 1) ^ 40 * 10 ^ (-a).toNat ≤ 16777216 ^ 40 ∧
    16777216 ^ 40 < (2 * thresholdValue a + 1) ^ 40 * 10 ^ (-a).toNat)

/-- A floor change, a mute switch report and the commands of the plan's own settings recompute every target by R60 and touch nothing else
of the engine; a presence report changes the held ONLINE alone, and in SLEEP leaves the seat not ONLINE (R57, R58, R59, R60, R61, R62, R78, R79,
R80). -/
def Obligations.TargetsFollowTheGainPlan : Prop :=
  ∀ (v : MixFloor) (b : Bool) (x : Seat) (p : Presence) (r : CmdRef) (n : Int) (s : State),
    (∃ t, exec (.floorChangeAtMix v) s = .next t ∧ t = { Taken (.floorChangeAtMix v) s with mix := t.mix } ∧ TargetsPlanned t ∧
      OnlyTargets { s.mix with speakers := v.speakers, overriding := v.overriding, policy := v.policy } t.mix) ∧
    (∃ t, exec (.muteSwitchAtMix b) s = .next t ∧ t = { Taken (.muteSwitchAtMix b) s with mix := t.mix } ∧ TargetsPlanned t ∧
      OnlyTargets { s.mix with mute := b } t.mix) ∧
    (∃ t, exec (.presenceReportAtMix x p) s = .next t ∧ t = { Taken (.presenceReportAtMix x p) s with mix := t.mix } ∧
      t.mix = { s.mix with seats := t.mix.seats } ∧
      ∀ y, t.mix.seats.get y = if y = x then { s.mix.seats.get x with online := p = .online && s.mix.power ≠ some .sleep } else s.mix.seats.get y) ∧
    (s.pcu.power = some .full →
      (∃ t, exec (.setMaster r (some n)) s = .next t ∧ TargetsPlanned t ∧ OnlyTargets s.mix t.mix ∧
        t = { NumberSet (.setMaster r (some n)) r (-160) 0 n { s.settings with master := clampInt (-160) 0 n } s with mix := t.mix }) ∧
      (∃ t, exec (.setTrim r (.one (some x)) (some n)) s = .next t ∧ TargetsPlanned t ∧ OnlyTargets s.mix t.mix ∧
        t = { NumberSet (.setTrim r (.one (some x)) (some n)) r (-24) 24 n
          { s.settings with trim := s.settings.trim.upd x (clampInt (-24) 24 n) } s with mix := t.mix }) ∧
      (∃ t, exec (.setDuck r (some n)) s = .next t ∧ TargetsPlanned t ∧ OnlyTargets s.mix t.mix ∧
        t = { NumberSet (.setDuck r (some n)) r (-60) 0 n { s.settings with duck := clampInt (-60) 0 n } s with mix := t.mix }) ∧
      (∃ t, exec (.setNom r (some b)) s = .next t ∧ TargetsPlanned t ∧ OnlyTargets s.mix t.mix ∧
        t = { Answered (.setNom r (some b)) r .ok [] s with settings := { s.settings with nom := b }, mix := t.mix }))

/-! ## Numeric and plain settings -/

/-- The numeric settings (00_scope, R16, R79, R80, R81, R90, R91, R92, R112, R154, R176): a number in range is set and answered OK, one outside is
brought to the nearer bound and answered CLAMPED with the value in force, and SET-DEBOUNCE refuses one that is no number. A sleep delay set in QUIET
starts the sleep timer afresh, in units of 1/1024 s (log 4). The voice settings always answer the value in force, a hold being brought to 100 to 2000 and
rounded to a multiple of 50. The engine's, the detector's and the screens' need FULL. -/
def Obligations.NumericSettings : Prop :=
  ∀ (r : CmdRef) (n : Int) (s : State),
    exec (.setDebounce r (some n)) s =
      .next (NumberSet (.setDebounce r (some n)) r 1 4 n { s.settings with debounce := (clampInt 1 4 n).toNat } s) ∧
    exec (.setDebounce r none) s = .next (Answered (.setDebounce r none) r .badArgument [] s) ∧
    exec (.setOverrunGrace r (some n)) s =
      .next (NumberSet (.setOverrunGrace r (some n)) r 0 15 n { s.settings with overrunGrace := (clampInt 0 15 n).toNat } s) ∧
    exec (.setSleepDelay r (some n)) s =
      .next { NumberSet (.setSleepDelay r (some n)) r 0 240 n { s.settings with sleepDelay := (clampInt 0 240 n).toNat } s with
        pcu := { s.pcu with sleep := if s.pcu.power = some .quiet then
          (if n ≤ 0 then none else some ((clampInt 0 240 n).toNat * 60 * 1024)) else s.pcu.sleep } } ∧
    (s.pcu.power = some .full →
      exec (.setSpeakerLevel r (some n)) s =
        .next (NumberSet (.setSpeakerLevel r (some n)) r (-160) 0 n { s.settings with speakerLevel := clampInt (-160) 0 n } s) ∧
      exec (.setSelfDuck r (some n)) s =
        .next (NumberSet (.setSelfDuck r (some n)) r (-24) 0 n { s.settings with selfDuck := clampInt (-24) 0 n } s) ∧
      exec (.setExclusion r (some n)) s =
        .next (NumberSet (.setExclusion r (some n)) r 0 3 n { s.settings with exclusion := (clampInt 0 3 n).toNat } s) ∧
      exec (.setRemoteGain r (some (.code n))) s =
        .next (NumberSet (.setRemoteGain r (some (.code n))) r (-160) 24 n { s.settings with remoteGain := .code (clampInt (-160) 24 n) } s) ∧
      exec (.setRemoteGain r (some .mute)) s =
        .next { Answered (.setRemoteGain r (some .mute)) r .ok [] s with settings := { s.settings with remoteGain := .mute } } ∧
      exec (.setFloorGrace r (some n)) s =
        .next (NumberSet (.setFloorGrace r (some n)) r 0 60 n { s.settings with floorGrace := (clampInt 0 60 n).toNat } s) ∧
      (∃ t, exec (.setVoiceThreshold r (some n)) s = .next t ∧
        t = { Answered (.setVoiceThreshold r (some n)) r (if -120 ≤ n ∧ n ≤ -12 then .ok else .clamped) (i16 t.settings.threshold) s with
          settings := { s.settings with threshold := t.settings.threshold } } ∧
        t.settings.threshold = max (-120) (min (-12) n)) ∧
      (∃ t, exec (.setVoiceOnset r (some n)) s = .next t ∧
        t = { Answered (.setVoiceOnset r (some n)) r (if 1 ≤ n ∧ n ≤ 15 then .ok else .clamped) (i16 t.settings.onset) s with
          settings := { s.settings with onset := t.settings.onset } } ∧
        (t.settings.onset : Int) = max 1 (min 15 n)) ∧
      (∃ t, exec (.setVoiceHold r (some n)) s = .next t ∧
        t = { Answered (.setVoiceHold r (some n)) r (if (t.settings.hold : Int) = n then .ok else .clamped) (i16 t.settings.hold) s with
          settings := { s.settings with hold := t.settings.hold } } ∧
        t.settings.hold % 50 = 0 ∧ 100 ≤ t.settings.hold ∧ t.settings.hold ≤ 2000 ∧
        (100 ≤ n → n ≤ 2000 → n - 25 < t.settings.hold ∧ (t.settings.hold : Int) ≤ n + 25) ∧
        (n < 100 → t.settings.hold = 100) ∧ (2000 < n → t.settings.hold = 2000)))

/-! ## The voice detector (chapter 4) -/

/-- The end of a block (R83), once 48 sample periods have been taken (log 36): an eligible seat that took part in the whole block takes the larger of its
block peak and its decayed envelope and makes one detector step against the threshold value. Below it a seat in QUIET stays, one in ONSET returns to QUIET, one in
VOICE goes to HOLD, and one in HOLD counts down, to QUIET with its voice end reported at the last block. At or above it a count that reaches the setting goes to VOICE
with its voice onset reported, from QUIET too when the setting is 1, a smaller count stands in ONSET, VOICE stays, and HOLD returns to VOICE (R85, R86). Nothing else is
reported (R88). Every other seat keeps its envelope, state and counters. The next block begins with every peak at 0. Before that no block has ended. -/
def Obligations.BlockEndsAtEverySeat : Prop :=
  ∀ s : State, (s.pcu.audio ≠ .running ∨ s.vdt.samples < 48 → exec .block s = .next s) ∧
    (s.pcu.audio = .running → 48 ≤ s.vdt.samples → ∃ t, exec .block s = .next t ∧ t = { s with vdt := t.vdt, scr := t.scr, flight := t.flight } ∧
      t.vdt.samples = 0 ∧ t.vdt.power = s.vdt.power ∧ ∃ out, Raised s t out ∧ (∀ i ∈ out, ∃ x, i = .voiceOnset x ∨ i = .voiceEnd x) ∧
      ∀ x, let v := s.vdt.seats.get x
        let e := max v.peak (v.env - v.env / 16)
        (t.vdt.seats.get x).peak = 0 ∧ (t.vdt.seats.get x).online = v.online ∧
        (t.vdt.seats.get x).floorEligible = v.floorEligible ∧
        (v.eligible s.vdt.power = true → v.whole = true →
          (t.vdt.seats.get x).env = e ∧
          let step := detectorStep s.settings.onset s.settings.hold (thresholdValue s.settings.threshold ≤ e) { v with env := e }
          let silent := .voiceOnset x ∉ out ∧ .voiceEnd x ∉ out
          t.vdt.seats.get x = { step.1 with peak := 0 } ∧
          (.voiceOnset x ∈ out ↔ step.2 = some true) ∧ (.voiceEnd x ∈ out ↔ step.2 = some false) ∧
          (e < thresholdValue s.settings.threshold →
            (v.state = .quiet → (t.vdt.seats.get x).state = .quiet ∧ silent) ∧
            (v.state = .onset → (t.vdt.seats.get x).state = .quiet ∧ (t.vdt.seats.get x).count = 0 ∧ silent) ∧
            (v.state = .voice → (t.vdt.seats.get x).state = .hold ∧ (t.vdt.seats.get x).hold = s.settings.hold ∧ silent) ∧
            (v.state = .hold → 2 ≤ v.hold → (t.vdt.seats.get x).state = .hold ∧ (t.vdt.seats.get x).hold = v.hold - 1 ∧ silent) ∧
            (v.state = .hold → v.hold = 1 → (t.vdt.seats.get x).state = .quiet ∧ (t.vdt.seats.get x).hold = 0 ∧
              .voiceEnd x ∈ out ∧ .voiceOnset x ∉ out)) ∧
          (thresholdValue s.settings.threshold ≤ e →
            (v.state = .quiet → 2 ≤ s.settings.onset → (t.vdt.seats.get x).state = .onset ∧ (t.vdt.seats.get x).count = 1 ∧ silent) ∧
            (v.state = .quiet → s.settings.onset = 1 → (t.vdt.seats.get x).state = .voice ∧ (t.vdt.seats.get x).count = 0 ∧
              .voiceOnset x ∈ out ∧ .voiceEnd x ∉ out) ∧
            (v.state = .onset → v.count + 1 < s.settings.onset → (t.vdt.seats.get x).state = .onset ∧
              (t.vdt.seats.get x).count = v.count + 1 ∧ silent) ∧
            (v.state = .onset → s.settings.onset ≤ v.count + 1 → (t.vdt.seats.get x).state = .voice ∧ (t.vdt.seats.get x).count = 0 ∧
              .voiceOnset x ∈ out ∧ .voiceEnd x ∉ out) ∧
            (v.state = .voice → (t.vdt.seats.get x).state = .voice ∧ silent) ∧
            (v.state = .hold → (t.vdt.seats.get x).state = .voice ∧ (t.vdt.seats.get x).hold = 0 ∧ silent))) ∧
        (v.eligible s.vdt.power = false ∨ v.whole = false → t.vdt.seats.get x = { v with peak := 0, whole := v.eligible s.vdt.power } ∧
          .voiceOnset x ∉ out ∧ .voiceEnd x ∉ out))

/-- A voice onset takes as many blocks at or above threshold in a row as the onset setting counts, and a voice end as many below it as the
hold setting counts after the block that loads the hold; in between nothing is reported (R85, R86, R88). -/
def Obligations.OnsetAndHoldCountTheirBlocks : Prop :=
  ∀ (onset hold n : Nat) (v : VdtSeat), 1 ≤ onset → 1 ≤ hold →
    (v.state = .quiet → n < onset → (detectorRun onset hold true n v).2 = []) ∧
    (v.state = .quiet → onset ≤ n → (detectorRun onset hold true n v).2 = [true] ∧ (detectorRun onset hold true n v).1.state = .voice) ∧
    (v.state = .voice → n ≤ hold → (detectorRun onset hold false n v).2 = []) ∧
    (v.state = .voice → hold < n → (detectorRun onset hold false n v).2 = [false] ∧ (detectorRun onset hold false n v).1.state = .quiet)

/-- Reports of presence and of floor eligibility (R87, R88): the held fact is set; a seat that ceases to be eligible returns to QUIET with
its envelope and counters at 0, and one that was in VOICE or HOLD reports its voice end. No other seat changes. -/
def Obligations.EligibilityReportsAtTheDetector : Prop :=
  ∀ (x : Seat) (p : Presence) (b : Bool) (s : State),
    (∃ t, exec (.presenceReportAtVdt x p) s = .next t ∧ t = { s with vdt := t.vdt, flight := t.flight } ∧
      (∀ y, y ≠ x → t.vdt.seats.get y = s.vdt.seats.get y) ∧ (t.vdt.seats.get x).online = (p = .online) ∧
      (t.vdt.seats.get x).floorEligible = (s.vdt.seats.get x).floorEligible ∧
      ((s.vdt.seats.get x).eligible s.vdt.power = true → p ≠ .online →
        (t.vdt.seats.get x).state = .quiet ∧ (t.vdt.seats.get x).env = 0 ∧ (t.vdt.seats.get x).count = 0 ∧
        (t.vdt.seats.get x).hold = 0 ∧
        Sent (.presenceReportAtVdt x p) s t (if (s.vdt.seats.get x).state = .voice ∨ (s.vdt.seats.get x).state = .hold then
          [.voiceEnd x] else []))) ∧
    (∃ t, exec (.eligibilityReport x b) s = .next t ∧ t = { s with vdt := t.vdt, flight := t.flight } ∧
      (∀ y, y ≠ x → t.vdt.seats.get y = s.vdt.seats.get y) ∧ (t.vdt.seats.get x).floorEligible = b ∧
      (t.vdt.seats.get x).online = (s.vdt.seats.get x).online ∧
      ((s.vdt.seats.get x).eligible s.vdt.power = true → b = false →
        (t.vdt.seats.get x).state = .quiet ∧ (t.vdt.seats.get x).env = 0 ∧ (t.vdt.seats.get x).count = 0 ∧
        (t.vdt.seats.get x).hold = 0 ∧
        Sent (.eligibilityReport x b) s t (if (s.vdt.seats.get x).state = .voice ∨ (s.vdt.seats.get x).state = .hold then
          [.voiceEnd x] else [])))

/-! ## The screens (chapter 5) -/

/-- A seat that is no longer ONLINE, is disabled, or is dropped from a meeting loses its share entries, and a lost seat its signal and its
point's picture; an activation or an ending empties the share list and puts the agenda of the moment and the page it makes in place, and the word of
an ending clears the held ending mark (R97, R101, R103, R106, R150). A presence report that crossed the report of SLEEP is taken as any other,
the model's choice (log 55). -/
def Obligations.SeatsLeaveTheScreens : Prop :=
  ∀ (x : Seat) (seats : List Seat) (isEnding : Bool) (a : Agenda) (s : State),
    (∃ t, exec (.presenceReportAtScr x .online) s = .next t ∧ ScreensDerived t ∧
      ScreenBecomes .report s t s.settings { s.scr with seats := s.scr.seats.upd x { s.scr.seats.get x with online := true } }) ∧
    (pointOf s.settings x = none → ∃ t, exec (.presenceReportAtScr x .offline) s = .next t ∧ ScreensDerived t ∧
      ScreenBecomes .report s t s.settings { s.scr with
        seats := s.scr.seats.upd x { s.scr.seats.get x with online := false, signal := false }
        shares := s.scr.shares.filter fun e => e.seat ≠ x }) ∧
    (∀ p, pointOf s.settings x = some p → ∃ t, exec (.presenceReportAtScr x .offline) s = .next t ∧ ScreensDerived t ∧
      ScreenBecomes .report s t s.settings { s.scr with
        seats := s.scr.seats.upd x { s.scr.seats.get x with online := false, signal := false }
        points := s.scr.points.upd p { signal := false, loss := none }
        shares := s.scr.shares.filter fun e => e.seat ≠ x && !(e.point = p && e.state ≠ .waiting) }) ∧
    (∃ t, exec (.enabledReportAtScr x false) s = .next t ∧ ScreensDerived t ∧
      ScreenBecomes .report s t s.settings { s.scr with
        seats := s.scr.seats.upd x { s.scr.seats.get x with enabled := false }
        shares := s.scr.shares.filter fun e => e.seat ≠ x }) ∧
    (∃ t, exec (.enabledReportAtScr x true) s = .next t ∧ ScreensDerived t ∧
      ScreenBecomes .report s t s.settings { s.scr with seats := s.scr.seats.upd x { s.scr.seats.get x with enabled := true } }) ∧
    (∃ t, exec (.droppedSeatsReport seats) s = .next t ∧ ScreensDerived t ∧
      ScreenBecomes .report s t s.settings { s.scr with shares := s.scr.shares.filter fun e => !seats.contains e.seat }) ∧
    (∃ t, exec (.activationAtScr isEnding a) s = .next t ∧ ScreensDerived t ∧ t.scr.shares = [] ∧ PageSound t.scr ∧
      ScreenBecomes .report s t s.settings { s.scr with
        shares := [], agenda := a, organiserName := (s.participant (a.current.bind (·.organiser))).name
        page := t.scr.page, endingMark := !isEnding && s.scr.endingMark })

/-- A floor change replaces the held floor, the held enabled fields with it, and drops the entries of the seats it disables (log 23, DEDUCED); under FREE
and CHAIR it touches no other entry, and under FLOOR it starts the grace of a shown entry whose seat no longer speaks, counted in milliseconds (log 5),
or removes it when the floor grace is 0, and shows again one whose seat speaks once more (R101, R102). Remaining times, the ending mark and the
agenda are held as reported, and the agenda page reads as R106 says. Where R107 says so every nameplate is derived afresh. And every screen change sends behind
what was in flight, once each, the results that R109 lists and no others: a change for every nameplate that differs, whether the share list is empty when that
differs from the answer last given (R166), which is then the answer held, and one SHARE notice when the list, a signal state or a composition changed. -/
def Obligations.ReportsAtTheScreens : Prop :=
  ∀ (f : FloorView) (left : List (Seat × Option Nat)) (mark : Bool) (a : Agenda) (i : PIdx) (s : State),
    let taken := { s.scr with
      speakers := f.speakers, queue := f.queue, lead := f.lead
      seats := Tab.gen fun x =>
        { s.scr.seats.get x with role := f.roles.get x, participant := f.participants.get x, enabled := f.enabled.get x } }
    (s.settings.presenter ≠ .floor → ∃ t, exec (.floorChangeAtScr f) s = .next t ∧ PlatesDerived t ∧ ScreensDerived t ∧
      ScreenBecomes .report s t s.settings { taken with shares := s.scr.shares.filter fun e => f.enabled.get e.seat }) ∧
    (s.settings.presenter = .floor → s.settings.floorGrace ≠ 0 →
      ∃ t, exec (.floorChangeAtScr f) s = .next t ∧ PlatesDerived t ∧ ScreensDerived t ∧
        ScreenBecomes .report s t s.settings { taken with
          shares := (s.scr.shares.map fun e =>
            match e.state, f.speakers.any (fun d => d.seat = e.seat) with
            | .shown k, false => { e with state := .grace k (s.settings.floorGrace * 1000) }
            | .grace k _, true => { e with state := .shown k }
            | _, _ => e).filter fun e => f.enabled.get e.seat }) ∧
    (s.settings.presenter = .floor → s.settings.floorGrace = 0 →
      ∃ t, exec (.floorChangeAtScr f) s = .next t ∧ PlatesDerived t ∧ ScreensDerived t ∧
        ScreenBecomes .report s t s.settings { taken with
          shares := ((s.scr.shares.filter fun e =>
            match e.state with
            | .shown _ => f.speakers.any (fun d => d.seat = e.seat)
            | _ => true).map fun e =>
            match e.state, f.speakers.any (fun d => d.seat = e.seat) with
            | .grace k _, true => { e with state := .shown k }
            | _, _ => e).filter fun e => f.enabled.get e.seat }) ∧
    (∃ t, exec (.speechRemainingReport left) s = .next t ∧ PlatesDerived t ∧
      ScreenBecomes .report s t s.settings { s.scr with speakers := s.scr.speakers.map fun e =>
        { e with remaining := ((left.find? fun p => p.1 = e.seat).map (·.2)).getD e.remaining } }) ∧
    (∃ t, exec (.endingMarkReport mark) s = .next t ∧ PlatesDerived t ∧
      ScreenBecomes .report s t s.settings { s.scr with endingMark := mark }) ∧
    (∃ t, exec (.agendaReport a) s = .next t ∧ PageSound t.scr ∧
      ScreenBecomes .report s t s.settings { s.scr with
        agenda := a, organiserName := (s.participant (a.current.bind (·.organiser))).name, page := t.scr.page }) ∧
    (∃ t, exec (.participantEditReport i) s = .next t ∧ PlatesDerived t ∧
      (s.scr.agenda.current.bind (·.organiser) = some i → PageSound t.scr) ∧
      ScreenBecomes .report s t s.settings (if s.scr.agenda.current.bind (·.organiser) = some i then
        { s.scr with organiserName := (s.participant (some i)).name, page := t.scr.page } else s.scr)) ∧
    (∀ (cause : ShareCause) (plates : Bool) (s0 s1 : State),
      let t := State.screenChange cause plates s0 s1
      (t.scr.emptyTold = true ↔ t.scr.shares = []) ∧
      ∃ out, t.flight = s1.flight ++ out ∧ out.Nodup ∧ ∀ i, i ∈ out ↔ ScreenReports cause s1.scr.emptyTold s0 t i)

/-- The SHARE key asks for the screen at its bound point, and a second press withdraws the entry (R98), whatever the Screen Router holds of
the seat's presence and enabled field by then, which is the model's choice (log 47), in WAKING too, as is that a share-signal report that crossed the report of SLEEP is
taken as any other (log 55). A share signal is held and makes
its point SIGNAL, and its loss starts the 2 s hold, counted in milliseconds (log 5), at whose end a SHOWN or GRACE entry is removed (R95, R96, R101). The end of a floor
grace removes the entry in GRACE (R102). A point or timer that is not there makes no event, and neither does one that stands still while the audio
crystal is stopped (R173). -/
def Obligations.ShareKeysSignalsAndTimers : Prop :=
  ∀ (x : Seat) (p : Point) (s : State),
    (pointOf s.settings x = some p → s.scr.hasEntry p = false → isDark s.scr.power = false →
      ∃ t, exec (.shareKeyEvent x) s = .next t ∧ ScreensDerived t ∧
        ScreenBecomes .keyEvent s t s.settings { s.scr with shares := s.scr.shares ++ [⟨p, x, .waiting, false⟩] }) ∧
    (pointOf s.settings x = some p → s.scr.hasEntry p = true → ∃ t, exec (.shareKeyEvent x) s = .next t ∧ ScreensDerived t ∧
      ScreenBecomes .keyEvent s t s.settings { s.scr with shares := s.scr.shares.filter fun e => e.point ≠ p }) ∧
    (pointOf s.settings x = some p → ∃ t, exec (.shareSignalReport x true) s = .next t ∧ ScreensDerived t ∧
      ScreenBecomes .report s t s.settings { s.scr with
        seats := s.scr.seats.upd x { s.scr.seats.get x with signal := true }
        points := s.scr.points.upd p { signal := true, loss := none } }) ∧
    (pointOf s.settings x = some p → s.scr.points.get p = { signal := true, loss := none } →
      ∃ t, exec (.shareSignalReport x false) s = .next t ∧
        ScreenBecomes .report s t s.settings { s.scr with
          seats := s.scr.seats.upd x { s.scr.seats.get x with signal := false }
          points := s.scr.points.upd p { signal := true, loss := some 2000 } }) ∧
    (s.pcu.audio = .running → (s.scr.points.get p).loss ≠ none → ∃ t, exec (.lossTimerExpiry p) s = .next t ∧ ScreensDerived t ∧
      ScreenBecomes .lossExpiry s t s.settings { s.scr with
        points := s.scr.points.upd p { signal := false, loss := none }
        shares := s.scr.shares.filter fun e => !(e.point = p && e.state ≠ .waiting) }) ∧
    (s.pcu.audio ≠ .running ∨ (s.scr.points.get p).loss = none → exec (.lossTimerExpiry p) s = .next s) ∧
    (s.pcu.audio = .running → (∃ e ∈ s.scr.shares, e.point = p ∧ ∃ k n, e.state = .grace k n) → ∃ t, exec (.floorGraceExpiry p) s = .next t ∧
      ScreensDerived t ∧ ScreenBecomes .graceExpiry s t s.settings { s.scr with
        shares := s.scr.shares.filter fun e => !(e.point = p && e.inGrace) }) ∧
    (s.pcu.audio ≠ .running ∨ (∀ e ∈ s.scr.shares, e.point = p → e.inGrace = false) → exec (.floorGraceExpiry p) s = .next s)

/-- The settings of the screens (R99, R104, R110, R111, R112): a new layout or source returns to WAITING the entries whose slot goes, a new
presenter policy judges every entry afresh, and a value already in force changes nothing. -/
def Obligations.ScreenSettings : Prop :=
  ∀ (r : CmdRef) (c : Screen) (l : Layout) (k : SlotId) (src : Source) (b : Bool) (p : PresenterPolicy) (s : State),
    s.pcu.power = some .full →
    (SlotsInForce s → l ≠ s.settings.layout.get c → ∃ t, exec (.setLayout r (some c) (some l)) s = .next t ∧ ScreensDerived t ∧
      ScreenBecomes .command s t { s.settings with layout := s.settings.layout.upd c l } { s.scr with
        shares := s.scr.shares.map fun e =>
          if l = .full ∧ e.state.slot = some (rightSlot c) then { e with state := .waiting } else e } ∧
      SentSome (.setLayout r (some c) (some l)) s t (EndsWith (.blockResult r .ok []))) ∧
    (SlotsInForce s → src ≠ s.settings.source.get k → ∃ t, exec (.setSlot r (some k) (some src)) s = .next t ∧ ScreensDerived t ∧
      ScreenBecomes .command s t { s.settings with source := s.settings.source.upd k src } { s.scr with
        shares := s.scr.shares.map fun e => if e.state.slot = some k then { e with state := .waiting } else e } ∧
      SentSome (.setSlot r (some k) (some src)) s t (EndsWith (.blockResult r .ok []))) ∧
    (exec (.setLayout r (some c) (some (s.settings.layout.get c))) s =
      .next (Answered (.setLayout r (some c) (some (s.settings.layout.get c))) r .ok [] s)) ∧
    (exec (.setSlot r (some k) (some (s.settings.source.get k))) s =
      .next (Answered (.setSlot r (some k) (some (s.settings.source.get k))) r .ok [] s)) ∧
    (exec (.setCaption r (some s.settings.caption)) s = .next (Answered (.setCaption r (some s.settings.caption)) r .ok [] s)) ∧
    (exec (.setPresenterPolicy r (some s.settings.presenter)) s =
      .next (Answered (.setPresenterPolicy r (some s.settings.presenter)) r .ok [] s)) ∧
    (b ≠ s.settings.caption → ∃ t, exec (.setCaption r (some b)) s = .next t ∧ ScreensDerived t ∧
      ScreenBecomes .command s t { s.settings with caption := b } s.scr ∧ SentSome (.setCaption r (some b)) s t (EndsWith (.blockResult r .ok []))) ∧
    (p ≠ s.settings.presenter → ∃ t, exec (.setPresenterPolicy r (some p)) s = .next t ∧ ScreensDerived t ∧
      ScreenBecomes .command s t { s.settings with presenter := p } { s.scr with
        shares := s.scr.shares.map fun e =>
          if e.state = .waiting then e
          else if MayBeShown p s.scr e then { e with state := match e.state with
            | .grace j _ => .shown j
            | u => u }
          else { e with state := .waiting } } ∧
      SentSome (.setPresenterPolicy r (some p)) s t (EndsWith (.blockResult r .ok [])))

/-- The commands over share points (R101, R113, R114): SHARE-START asks for the screen for the seat bound to the point, SHARE-STOP takes its
entry away, APPROVE-SHARE sets its approval or withdraws it, under CHAIR a shown entry then returning to WAITING, and BIND-SHARE-POINT binds the point
afresh with the new seat's signal, or unbinds it; a point without an entry is NOT-FOUND. That an approval which places the entry
answers OK with no payload is the model's choice (log 45). -/
def Obligations.SharePointCommands : Prop :=
  ∀ (r : CmdRef) (p : Point) (x : Seat) (s : State),
    (s.pcu.power = some .full → s.settings.binding.get p = some x → (s.scr.seats.get x).enabled = true →
      (s.scr.seats.get x).online = true → s.scr.hasEntry p = false →
      ∃ t, exec (.shareStart r (some p)) s = .next t ∧ ScreensDerived t ∧
        ScreenBecomes .command s t s.settings { s.scr with shares := s.scr.shares ++ [⟨p, x, .waiting, false⟩] } ∧
        SentSome (.shareStart r (some p)) s t (EndsWith (.blockResult r .ok (t.scr.placedField p)))) ∧
    (s.pcu.power = some .full → s.scr.hasEntry p = true → ∃ t, exec (.shareStop r (some p)) s = .next t ∧ ScreensDerived t ∧
      ScreenBecomes .command s t s.settings { s.scr with shares := s.scr.shares.filter fun e => e.point ≠ p } ∧
      SentSome (.shareStop r (some p)) s t (EndsWith (.blockResult r .ok []))) ∧
    (s.pcu.power = some .full → s.scr.hasEntry p = true → ∃ t, exec (.approveShare r (some p) (some true)) s = .next t ∧
      ScreensDerived t ∧ ScreenBecomes .command s t s.settings { s.scr with
        shares := s.scr.shares.map fun e => if e.point = p then { e with approved := true } else e } ∧
      SentSome (.approveShare r (some p) (some true)) s t (EndsWith (.blockResult r .ok []))) ∧
    (s.pcu.power = some .full → s.scr.hasEntry p = true → ∃ t, exec (.approveShare r (some p) (some false)) s = .next t ∧
      ScreensDerived t ∧ ScreenBecomes .command s t s.settings { s.scr with
        shares := s.scr.shares.map fun e => if e.point = p then
            { e with
              approved := false
              state := match s.settings.presenter, e.state with
                | .chair, .shown _ => .waiting
                | _, u => u }
          else e } ∧
      SentSome (.approveShare r (some p) (some false)) s t (EndsWith (.blockResult r .ok []))) ∧
    (s.pcu.power = some .full → s.scr.hasEntry p = false →
      exec (.shareStop r (some p)) s = .next (Answered (.shareStop r (some p)) r .notFound [] s) ∧
      ∀ b, exec (.approveShare r (some p) (some b)) s = .next (Answered (.approveShare r (some p) (some b)) r .notFound [] s)) ∧
    (s.settings.binding.get p ≠ none → ∃ t, exec (.bindSharePoint r (some p) .unbind) s = .next t ∧ ScreensDerived t ∧
      ScreenBecomes .command s t { s.settings with binding := s.settings.binding.upd p none } { s.scr with
        shares := s.scr.shares.filter fun e => e.point ≠ p
        points := s.scr.points.upd p { signal := false, loss := none } } ∧
      SentSome (.bindSharePoint r (some p) .unbind) s t (EndsWith (.blockResult r .ok []))) ∧
    (s.settings.binding.get p = none →
      exec (.bindSharePoint r (some p) .unbind) s = .next (Answered (.bindSharePoint r (some p) .unbind) r .ok [] s)) ∧
    (s.settings.binding.get p ≠ some x → (∀ q, s.settings.binding.get q ≠ some x) →
      ∃ t, exec (.bindSharePoint r (some p) (.to (some x))) s = .next t ∧ ScreensDerived t ∧
        ScreenBecomes .command s t { s.settings with binding := s.settings.binding.upd p (some x) } { s.scr with
          shares := s.scr.shares.filter fun e => e.point ≠ p
          points := s.scr.points.upd p { signal := (s.scr.seats.get x).signal, loss := none } } ∧
        SentSome (.bindSharePoint r (some p) (.to (some x))) s t (EndsWith (.blockResult r .ok []))) ∧
    (∀ q, q ≠ p → s.settings.binding.get p ≠ some x → s.settings.binding.get q = some x →
      exec (.bindSharePoint r (some p) (.to (some x))) s =
        .next (Answered (.bindSharePoint r (some p) (.to (some x))) r .conflict [] s))

/-- The time shown with SPEAKING (R108): none without a limit, OVER in overtime, within the warning lead the seconds rounded up to a
multiple of 10, and else the minutes rounded up. -/
def Obligations.SpeakingTimeIsRoundedUp : Prop :=
  ∀ (lead r : Nat) (late : Bool),
    speakTime lead none late = .noTime ∧ speakTime lead (some r) true = .over ∧
    (lead ≠ 0 → r ≤ lead → ∃ n, speakTime lead (some r) false = .seconds n ∧ n % 10 = 0 ∧ r ≤ n ∧ n < r + 10) ∧
    (lead = 0 ∨ lead < r → ∃ n, speakTime lead (some r) false = .minutes n ∧ r ≤ 60 * n ∧ 60 * n < r + 60)

/-! ## The booking store (chapter 6) -/

/-- The booking commands (R119, R120, R121, R122, R123): ADD-BOOKING places a valid record that clashes with no live booking in the lowest
free slot, or in a full table over the spent booking with the earliest reclaim key, the lower slot between equal keys; a clash is CONFLICT and a
table of live bookings FULL; CANCEL-BOOKING cancels a booking that is SCHEDULED or PENDING; DELETE-BOOKING frees the slot of a spent one;
EDIT-BOOKING puts the edited record in place, new times under the checks of ADD-BOOKING. Each changes that slot alone, owes it a write, notices and reports
it, and waits for the write. The EDITED notice carries the calendar reference after the edit, the model's choice (log 38). -/
def Obligations.BookingCommands : Prop :=
  ∀ (r : CmdRef) (form : BookingForm) (e : BookingEdit) (i : BSlot) (k : Booking) (s : State),
    let changed := fun (c : Instr) (v : Option Booking) (payload : List Byte) (out : List Instr) =>
      ∃ t, exec c s = .next t ∧ StoreFrame s t ∧ (∀ j, t.bks.bookings.get j = if j = i then v else s.bks.bookings.get j) ∧
        t.bks.participants = s.bks.participants ∧ t.bks.durable = s.bks.durable ∧ t.bks.persist (.booking i) ≠ .clean ∧
        t.bks.waiters = s.bks.waiters ++ [⟨r, .ok, payload, [s.bks.waitOn (.booking i)]⟩] ∧ Sent c s t out
    (s.bks.recordOf form = some k → s.msc.clock = .set → s.msc.minuteNow < k.stop.minutes →
      (∀ j b, s.bks.bookings.get j = some b → isLive b.state = true → overlap k b = false) →
      s.bks.bookings.get i = none → (∀ j, j < i → s.bks.bookings.get j ≠ none) →
      changed (.addBooking r form) (some k) (u8 i.val)
        [.notice .booking (bookingPayload .added i k.calRef none), .bookingReport (.added i)]) ∧
    (∀ b, s.bks.recordOf form = some k → s.msc.clock = .set → s.msc.minuteNow < k.stop.minutes →
      (∀ j d, s.bks.bookings.get j = some d → isLive d.state = true → overlap k d = false) →
      (∀ j, s.bks.bookings.get j ≠ none) → s.bks.bookings.get i = some b → isLive b.state = false →
      (∀ j d, s.bks.bookings.get j = some d → isLive d.state = false →
        reclaimKey b < reclaimKey d ∨ (reclaimKey b = reclaimKey d ∧ i ≤ j)) →
      changed (.addBooking r form) (some k) (u8 i.val)
        [.notice .booking (bookingPayload .added i k.calRef (some b.calRef)), .bookingReport (.added i)]) ∧
    (∀ b, s.bks.recordOf form = some k → s.msc.clock = .set → s.msc.minuteNow < k.stop.minutes →
      s.bks.bookings.get i = some b → isLive b.state = true → overlap k b = true →
      exec (.addBooking r form) s = .next (Answered (.addBooking r form) r .conflict [] s)) ∧
    (s.bks.recordOf form = some k → s.msc.clock = .set → s.msc.minuteNow < k.stop.minutes →
      (∀ j, ∃ d, s.bks.bookings.get j = some d ∧ isLive d.state = true ∧ overlap k d = false) →
      exec (.addBooking r form) s = .next (Answered (.addBooking r form) r .full [] s)) ∧
    (s.bks.recordOf form = some k → s.msc.clock = .set → k.stop.minutes ≤ s.msc.minuteNow →
      exec (.addBooking r form) s = .next (Answered (.addBooking r form) r .badArgument [] s)) ∧
    (s.bks.recordOf form = some k → s.msc.clock ≠ .set →
      exec (.addBooking r form) s = .next (Answered (.addBooking r form) r .clockUnset [] s)) ∧
    (s.bks.recordOf form = none → exec (.addBooking r form) s = .next (Answered (.addBooking r form) r .badArgument [] s)) ∧
    (s.bks.bookings.get i = some k → k.state = .scheduled ∨ k.state = .pending →
      changed (.cancelBooking r (some i)) (some { k with state := .cancelled }) []
        [.notice .booking (bookingPayload .cancelled i k.calRef none), .bookingReport (.cancelled i (k.state = .pending))]) ∧
    (s.bks.bookings.get i = some k → isLive k.state = false →
      changed (.deleteBooking r (some i)) none [] [.notice .booking (bookingPayload .deleted i k.calRef none)]) ∧
    (∀ n, s.bks.bookings.get i = some k → editAllowed e k.state = true →
      s.bks.recordOf (editedForm e (formOfBooking k)) = some n → n.start = k.start → n.stop = k.stop →
      keepingLife k n ≠ k →
      changed (.editBooking r (some i) e) (some (keepingLife k n)) []
        [.notice .booking (bookingPayload .edited i n.calRef none),
          .bookingReport (.edited i k.plan n.plan (n.title ≠ k.title || n.organiser ≠ k.organiser) false)]) ∧
    (∀ n, s.bks.bookings.get i = some k → editAllowed e k.state = true →
      s.bks.recordOf (editedForm e (formOfBooking k)) = some n → n.start ≠ k.start ∨ n.stop ≠ k.stop →
      (s.msc.clock ≠ .set →
        exec (.editBooking r (some i) e) s = .next (Answered (.editBooking r (some i) e) r .clockUnset [] s)) ∧
      (s.msc.clock = .set → n.stop.minutes ≤ s.msc.minuteNow →
        exec (.editBooking r (some i) e) s = .next (Answered (.editBooking r (some i) e) r .badArgument [] s)) ∧
      (s.msc.clock = .set → s.msc.minuteNow < n.stop.minutes →
        (∀ j b, j ≠ i → s.bks.bookings.get j = some b → isLive b.state = true → overlap n b = false) →
        changed (.editBooking r (some i) e) (some (keepingLife k n)) []
          [.notice .booking (bookingPayload .edited i n.calRef none),
            .bookingReport (.edited i k.plan n.plan (n.title ≠ k.title || n.organiser ≠ k.organiser) (n.start ≠ k.start))]) ∧
      (∀ j b, s.msc.clock = .set → s.msc.minuteNow < n.stop.minutes → j ≠ i → s.bks.bookings.get j = some b →
        isLive b.state = true → overlap n b = true →
        exec (.editBooking r (some i) e) s = .next (Answered (.editBooking r (some i) e) r .conflict [] s)))

/-- The participant commands (R118, R124, R125): a record is valid when its name has 1 to 24 characters of the display set, one of them no space, and its note
0 to 24, and one that is not is refused with nothing changed; a valid participant is placed in the lowest free slot; an edit replaces the record; a deletion is
refused while a live booking names the participant, and else empties the slot and takes the participant out of every spent booking. -/
def Obligations.ParticipantCommands : Prop :=
  ∀ (r : CmdRef) (name note : Text) (p : PIdx) (s : State),
    (validParticipant ⟨name, note⟩ = true ↔ (1 ≤ name.length ∧ name.length ≤ 24 ∧ (∃ c ∈ name, c ≠ 32#8)) ∧ note.length ≤ 24 ∧
      ∀ c ∈ name ++ note, 32 ≤ c.toNat ∧ c.toNat ≤ 126) ∧
    (validParticipant ⟨name, note⟩ = false →
      exec (.addParticipant r name note) s = .next (Answered (.addParticipant r name note) r .badArgument [] s) ∧
      (s.bks.participants.get p ≠ none → exec (.editParticipant r (some p) (some name) (some note)) s =
        .next (Answered (.editParticipant r (some p) (some name) (some note)) r .badArgument [] s))) ∧
    (∀ old, s.bks.participants.get p = some old →
      (validParticipant ⟨name, old.note⟩ = false → exec (.editParticipant r (some p) (some name) none) s =
        .next (Answered (.editParticipant r (some p) (some name) none) r .badArgument [] s)) ∧
      (validParticipant ⟨old.name, note⟩ = false → exec (.editParticipant r (some p) none (some note)) s =
        .next (Answered (.editParticipant r (some p) none (some note)) r .badArgument [] s))) ∧
    (validParticipant ⟨name, note⟩ = true → s.bks.participants.get p = none → (∀ q, q < p → s.bks.participants.get q ≠ none) →
      ∃ t, exec (.addParticipant r name note) s = .next t ∧ StoreFrame s t ∧ t.bks.bookings = s.bks.bookings ∧
        (∀ q, t.bks.participants.get q = if q = p then some ⟨name, note⟩ else s.bks.participants.get q) ∧
        t.bks.persist (.participant p) ≠ .clean ∧
        t.bks.waiters = s.bks.waiters ++ [⟨r, .ok, u8 p.val, [s.bks.waitOn (.participant p)]⟩] ∧
        Sent (.addParticipant r name note) s t [.notice .booking (participantPayload .participantAdded p)]) ∧
    (∀ old, s.bks.participants.get p = some old → validParticipant ⟨name, old.note⟩ = true → name ≠ old.name →
      ∃ t, exec (.editParticipant r (some p) (some name) none) s = .next t ∧ StoreFrame s t ∧ t.bks.bookings = s.bks.bookings ∧
        (∀ q, t.bks.participants.get q = if q = p then some ⟨name, old.note⟩ else s.bks.participants.get q) ∧
        t.bks.persist (.participant p) ≠ .clean ∧
        Sent (.editParticipant r (some p) (some name) none) s t
          [.notice .booking (participantPayload .participantEdited p), .participantEditReport p]) ∧
    (s.bks.participants.get p ≠ none →
      (∀ i k, s.bks.bookings.get i = some k → isLive k.state = true → namesParticipant k p = false) →
      ∃ t, exec (.deleteParticipant r (some p)) s = .next t ∧ StoreFrame s t ∧
        (∀ q, t.bks.participants.get q = if q = p then none else s.bks.participants.get q) ∧
        (∀ i, t.bks.bookings.get i = (s.bks.bookings.get i).map fun k => { k with
          organiser := if k.organiser = some p then none else k.organiser
          plan := { k.plan with attendees := k.plan.attendees.filter fun a => a.2 ≠ p } }) ∧
        Sent (.deleteParticipant r (some p)) s t
          [.notice .booking (participantPayload .participantDeleted p), .participantDeletionReport p]) ∧
    (∀ i k, s.bks.participants.get p ≠ none → s.bks.bookings.get i = some k → isLive k.state = true →
      namesParticipant k p = true →
      exec (.deleteParticipant r (some p)) s = .next (Answered (.deleteParticipant r (some p)) r .conflict [] s))

/-- The write queue (R128, R129, R130, R131, R132): the end of a write of a booking, a participant or the settings makes its image durable and
completes the commands that wait on it alone, a slot changed since joins the tail, and the next write starts from the head of the queue
unless the store is held; a hold starts and ends with a STORE notice, which at the end of a hold names the write just begun (log 27,
DEDUCED); SAVE-SETTINGS takes the working settings as the image to save and waits for their write. -/
def Obligations.WritesBecomeDurable : Prop :=
  ∀ (r : CmdRef) (s : State),
    let ended := fun (w : StoreSlot) (q : Bool) (t : State) => exec .storeWriteEnd s = .next t ∧ StoreFrame s t ∧
      t.bks.bookings = s.bks.bookings ∧ t.bks.participants = s.bks.participants ∧ t.bks.saveImage = s.bks.saveImage ∧
      (s.bks.supplyHeld = true → t.bks.writing = none ∧ t.bks.queue = s.bks.queue ++ (if q then [w] else [])) ∧
      (∀ k rest, s.bks.supplyHeld = false → s.bks.queue = k :: rest →
        t.bks.writing = some ⟨k, s.bks.image k, false⟩ ∧ t.bks.queue = rest ++ (if q then [w] else [])) ∧
      (s.bks.supplyHeld = false → s.bks.queue = [] →
        t.bks.writing = (if q then some ⟨w, s.bks.image w, false⟩ else none) ∧ t.bks.queue = []) ∧
      (∀ u ∈ s.bks.waiters, u.waits = [⟨w, 0⟩] → .blockResult u.ref u.result u.payload ∈ t.flight) ∧
      ∀ u ∈ t.bks.waiters, u.waits ≠ []
    (s.bks.writing = none → exec .storeWriteEnd s = .next s) ∧
    (∀ i v q, s.bks.writing = some ⟨.booking i, .booking v, q⟩ → ∃ t, ended (.booking i) q t ∧
      (∀ j, t.bks.durable.bookings.get j = if j = i then .good v else s.bks.durable.bookings.get j) ∧
      t.bks.durable.participants = s.bks.durable.participants ∧ t.bks.durable.settings = s.bks.durable.settings) ∧
    (∀ p v q, s.bks.writing = some ⟨.participant p, .participant v, q⟩ → ∃ t, ended (.participant p) q t ∧
      (∀ j, t.bks.durable.participants.get j = if j = p then .good v else s.bks.durable.participants.get j) ∧
      t.bks.durable.bookings = s.bks.durable.bookings ∧ t.bks.durable.settings = s.bks.durable.settings) ∧
    (∀ v q, s.bks.writing = some ⟨.settings, .settings v, q⟩ → ∃ t, ended .settings q t ∧ t.bks.durable.settings = .good v ∧
      t.bks.durable.bookings = s.bks.durable.bookings ∧ t.bks.durable.participants = s.bks.durable.participants) ∧
    (s.bks.supplyHeld = false → ∃ t, exec (.supplyWarningReport true) s = .next t ∧
      t.bks = { s.bks with supplyHeld := true } ∧ StoreFrame s t ∧
      Sent (.supplyWarningReport true) s t [.notice .store (storePayload t.bks)]) ∧
    (∀ k rest, s.bks.supplyHeld = true → s.bks.writing = none → s.bks.queue = k :: rest →
      ∃ t, exec (.supplyWarningReport false) s = .next t ∧ StoreFrame s t ∧
        t.bks = { s.bks with supplyHeld := false, queue := rest, writing := some ⟨k, s.bks.image k, false⟩ } ∧
        Sent (.supplyWarningReport false) s t [.notice .store (storePayload t.bks)]) ∧
    (exec (.supplyWarningReport s.bks.supplyHeld) s = .next (Taken (.supplyWarningReport s.bks.supplyHeld) s)) ∧
    (∃ t, exec (.saveSettings r) s = .next t ∧ t = { Taken (.saveSettings r) s with bks := t.bks } ∧
      t.bks.saveImage = s.settings ∧ t.bks.persist .settings ≠ .clean ∧ t.bks.bookings = s.bks.bookings ∧
      t.bks.waiters = s.bks.waiters ++ [⟨r, .ok, [], [s.bks.waitOn .settings]⟩])

/-! ## The meeting day (chapter 7) -/

/-- The room clock, the deadlines and the timed transitions (R135 to R145, R147, R148): a second event takes the clock one second on, at a minute it
evaluates, and the end of day 32767 loses it; SET-CLOCK sets it, and its result is the last report sent; at its deadline an AWAITING booking is
RELEASED and an ENDING one ENDED, with the actual end at now. That the no-show and grace deadlines are rows of their own, which bring the evaluation,
is the model's choice (log 20). An evaluation under a SET clock takes a SCHEDULED booking that alone is due to PENDING at its lead, and one SCHEDULED
or PENDING at its start to ACTIVE or, without its check-in, to AWAITING, with the wake request; a qualifying MIC flag found at the entry checks it in
and is consumed in the same evaluation, the model's choice (log 14); an ACTIVE booking past its end goes to ENDING within its grace, and else to
ENDED. Each of these transitions sends its BOOKING notice TRANSITION, with the slot, the calendar reference, the old state and the new one (R138). -/
def Obligations.ClockAndDeadlines : Prop :=
  ∀ (r : CmdRef) (day second : Nat) (i : BSlot) (k : Booking) (s : State),
    (s.msc.clock ≠ .lost → s.msc.day < 32767 ∨ s.msc.second < 86399 → s.msc.second ≤ 86399 → ∃ t, exec .secondEvent s = .next t ∧
      t.msc.clock = s.msc.clock ∧ t.settings = s.settings ∧ t.mix = s.mix ∧ t.vdt = s.vdt ∧ t.scr = s.scr ∧ t.rln = s.rln ∧
      t.pcu = s.pcu ∧ t.cph = s.cph ∧ t.msc.second ≤ 86399 ∧
      instant t.msc.day t.msc.second = instant s.msc.day s.msc.second + 1) ∧
    (s.msc.clock ≠ .lost → 32767 ≤ s.msc.day → 86399 ≤ s.msc.second → exec .secondEvent s = .next { s with
      msc := { s.msc with clock := .lost }
      flight := s.flight ++ [.notice .clock (clockPayload { s.msc with clock := .lost })] }) ∧
    (s.msc.clock = .lost → exec .secondEvent s = .next s) ∧
    (day ≤ 32767 → second ≤ 86399 → s.pcu.room = .running → ∃ t, exec (.setClock r day second) s = .next t ∧ ScheduleFrame s t ∧
      t.msc.clock = .set ∧ t.msc.day = day ∧ t.msc.second = second ∧
      SentSome (.setClock r day second) s t (EndsWith (.blockResult r .ok []))) ∧
    (s.msc.clock = .set → s.current = some (i, k) → k.state = .awaiting → s.releaseInstant k ≤ s.now →
      ∃ t, exec .noShowDeadline s = .next t ∧ ScheduleFrame s t ∧
        TransitionTold t i k .awaiting .released ∧
        t.bks.bookings.get i = some { k with state := .released, actualEnd := some (s.msc.day, s.msc.second) }) ∧
    (s.msc.clock = .set → s.current = some (i, k) → k.state = .ending → s.graceDeadline i k s.graceInForce ≤ s.now →
      ∃ t, exec .graceDeadline s = .next t ∧ ScheduleFrame s t ∧ TransitionTold t i k .ending .ended ∧
        t.bks.bookings.get i = some { k with state := .ended, actualEnd := some (s.msc.day, s.msc.second) }) ∧
    (s.current = none → exec .noShowDeadline s = .next s ∧ exec .graceDeadline s = .next s) ∧
    (s.msc.clock ≠ .lost → s.msc.second < 86399 → (s.msc.second + 1) % 60 = 0 → s.flc.speakers = [] →
      exec .secondEvent s = .next (State.evaluate { s with msc := { s.msc with second := s.msc.second + 1 } })) ∧
    (s.msc.clock ≠ .set → s.evaluate = s) ∧
    (let t := s.evaluate
      let becomes := fun b : Booking => t.bks.bookings.get i = some b ∧ ScheduleFrame s t
      let told := fun old new : BState => TransitionTold t i k old new
      let noFlag := ∀ x, (s.tbc.seats.get x).flag.mic = false
      let flagged := ∃ x, (s.tbc.seats.get x).flag.mic = true ∧ qualifies k x = true
      let consumed := ∀ x, qualifies k x = true → (t.tbc.seats.get x).flag.mic = false
      let alone := s.current = none ∧ s.bks.bookings.get i = some k ∧ k.state = .scheduled ∧
        ∀ j b, j ≠ i → s.bks.bookings.get j = some b → b.state = .scheduled → s.now < leadInstant s.settings.preStartLead b
      s.msc.clock = .set → instantOf k.start < instantOf k.stop →
      (alone → leadInstant s.settings.preStartLead k ≤ s.now → s.now < instantOf k.start →
        .wakeRequest .booking ∈ t.flight ∧ .bookingCurrentReport true ∈ t.flight ∧ told .scheduled .pending ∧
        (noFlag → becomes { k with state := .pending }) ∧
        (flagged → k.checkedIn = false → becomes { k with state := .pending, checkedIn := true } ∧ consumed ∧
          .notice .booking (checkedInPayload i k.calRef) ∈ t.flight)) ∧
      (alone ∨ (s.current = some (i, k) ∧ k.state = .pending) → instantOf k.start ≤ s.now → s.now < instantOf k.stop →
        .wakeRequest .booking ∈ t.flight ∧
        (k.noShow = 0 ∨ k.checkedIn = true → becomes { k with state := .active } ∧ told k.state .active ∧ .keyFlagClearing false ∈ t.flight) ∧
        (k.noShow ≠ 0 → k.checkedIn = false → noFlag → becomes { k with state := .awaiting } ∧ told k.state .awaiting ∧
          t.msc.awaitingSince = some (instant s.msc.day (s.msc.second / 60 * 60))) ∧
        (k.noShow ≠ 0 → k.checkedIn = false → flagged → becomes { k with state := .active, checkedIn := true } ∧ consumed ∧
          told k.state .awaiting ∧ told .awaiting .active)) ∧
      (s.current = some (i, k) → k.state = .active → instantOf k.stop ≤ s.now →
        (s.now < s.graceDeadline i k s.settings.overrunGrace → becomes { k with state := .ending } ∧ told .active .ending ∧
          t.msc.graceHeld = some s.settings.overrunGrace ∧ .endingMarkReport true ∈ t.flight) ∧
        (s.graceDeadline i k s.settings.overrunGrace ≤ s.now →
          told .active .ended ∧ becomes { k with state := .ended, actualEnd := some (s.msc.day, s.msc.second) })))

/-- Check-in (R138, R142, R143, R147, R149): a source checks in a PENDING booking, with a notice, and makes an AWAITING one ACTIVE with the activation
sent to every block, its seating state among it, and with its TRANSITION notice (R138); a set MIC flag counts when its seat qualifies, and is cleared
in the same step, the model's choice (log 14); a flag that has been cleared since, or whose seat does not qualify, counts for nothing (R18). -/
def Obligations.CheckInSources : Prop :=
  ∀ (r : CmdRef) (x : Seat) (l : Line) (e : LineEdge) (i : BSlot) (k : Booking) (s : State), s.current = some (i, k) →
    (k.state = .pending → k.checkedIn = false →
      (∃ t, exec (.occupancyEdge l e) s = .next t ∧ ScheduleFrame s t ∧ t.tbc = s.tbc ∧ t.msc = s.msc ∧
        t.bks.bookings.get i = some { k with checkedIn := true } ∧
        Sent (.occupancyEdge l e) s t [.notice .booking (checkedInPayload i k.calRef)]) ∧
      (∃ t, exec (.checkIn r) s = .next t ∧ ScheduleFrame s t ∧ t.tbc = s.tbc ∧ t.msc = s.msc ∧
        t.bks.bookings.get i = some { k with checkedIn := true } ∧
        t.bks.waiters = s.bks.waiters ++ [⟨r, .ok, u8 i.val ++ u8 BState.pending.ctorIdx, [s.bks.waitOn (.booking i)]⟩] ∧
        Sent (.checkIn r) s t [.notice .booking (checkedInPayload i k.calRef)]) ∧
      (qualifies k x = true → (s.tbc.seats.get x).flag.mic = true → ∃ t, exec (.micFlagReport x) s = .next t ∧ ScheduleFrame s t ∧
        t.bks.bookings.get i = some { k with checkedIn := true } ∧ (t.tbc.seats.get x).flag.mic = false ∧
        (∀ y, y ≠ x → t.tbc.seats.get y = s.tbc.seats.get y) ∧
        Sent (.micFlagReport x) s t [.notice .booking (checkedInPayload i k.calRef)])) ∧
    (k.state = .awaiting →
      (∃ t, exec (.occupancyEdge l e) s = .next t ∧ ScheduleFrame s t ∧ TransitionTold t i k .awaiting .active ∧
        t.bks.bookings.get i = some { k with state := .active, checkedIn := true } ∧
        SentSome (.occupancyEdge l e) s t fun out =>
          .keyFlagClearing false ∈ out ∧ (∃ agenda, .activationAtScr false agenda ∈ out) ∧ .sessionLampReport true ∈ out ∧ .bookingCurrentReport true ∈ out ∧
          .activationReport ⟨k.plan, k.mode, k.limit, s.settings.lockPolicy,
            if s.settings.lockPolicy = .free ∨ k.plan.attendees = [] then .openRoom else .meeting⟩ ∈ out) ∧
      (qualifies k x = true → (s.tbc.seats.get x).flag.mic = true → ∃ t, exec (.micFlagReport x) s = .next t ∧ ScheduleFrame s t ∧
        TransitionTold t i k .awaiting .active ∧ t.bks.bookings.get i = some { k with state := .active, checkedIn := true } ∧ (t.tbc.seats.get x).flag.mic = false ∧
        (∀ y, y ≠ x → t.tbc.seats.get y = s.tbc.seats.get y) ∧
        SentSome (.micFlagReport x) s t fun out => .keyFlagClearing false ∈ out ∧ .sessionLampReport true ∈ out) ∧
      (∃ t, exec (.checkIn r) s = .next t ∧ ScheduleFrame s t ∧ TransitionTold t i k .awaiting .active ∧
        t.bks.bookings.get i = some { k with state := .active, checkedIn := true } ∧
        t.bks.waiters = s.bks.waiters ++ [⟨r, .ok, u8 i.val ++ u8 BState.active.ctorIdx, [s.bks.waitOn (.booking i)]⟩])) ∧
    (qualifies k x = false ∨ (s.tbc.seats.get x).flag.mic = false → exec (.micFlagReport x) s = .next (Taken (.micFlagReport x) s))

/-- Ends, moves and settings of meetings (R138, R149, R150, R151, R152, R153, R154, R155, R166): END-NOW ends a running meeting with the actual end at
now and releases an AWAITING one; EXTEND moves the end of a running meeting, an ENDING one becoming ACTIVE again; an edit of a running meeting's plan
reaches the floor, and the seats it dropped the screens, the booking's state judged as the report is taken, the model's choice (log 59); for a booking
cancelled from PENDING the Power and Clock Unit is told that none is current (R166), where no other has become current meanwhile, the model's choice
(log 51); a title or organiser edit of the current or the next booking sends the agenda; a new pre-start lead is set; a new lock policy gives its
seating state; the catch-up of a SET-CLOCK takes the only live booking, if it is SCHEDULED, to its due state. Each of these transitions sends its
BOOKING notice TRANSITION (R138). -/
def Obligations.MeetingsEndAndMove : Prop :=
  ∀ (r : CmdRef) (i : BSlot) (k : Booking) (stop : DayMinute) (n : Int) (p : LockPolicy) (s : State),
    (s.bks.bookings.get i = some k → k.state = .active ∨ k.state = .ending → ∃ t, exec (.endNow r (some i)) s = .next t ∧
      ScheduleFrame s t ∧ TransitionTold t i k k.state .ended ∧
      t.bks.bookings.get i = some { k with state := .ended, actualEnd := some (s.msc.day, s.msc.second) } ∧
      t.bks.waiters = s.bks.waiters ++ [⟨r, .ok, [], [s.bks.waitOn (.booking i)]⟩] ∧
      .sessionLampReport false ∈ t.flight ∧ ∃ seating, .endingReport s.settings.lockPolicy seating ∈ t.flight) ∧
    (s.bks.bookings.get i = some k → k.state = .awaiting → ∃ t, exec (.endNow r (some i)) s = .next t ∧
      ScheduleFrame s t ∧ TransitionTold t i k .awaiting .released ∧
      t.bks.bookings.get i = some { k with state := .released, actualEnd := some (s.msc.day, s.msc.second) }) ∧
    (s.bks.bookings.get i = some k → k.state = .active ∨ k.state = .ending → validTime stop = true → s.msc.clock = .set →
      k.start.minutes + 5 ≤ stop.minutes → stop.minutes ≤ k.start.minutes + 720 → s.now < instantOf stop →
      (∀ j b, j ≠ i → s.bks.bookings.get j = some b → isLive b.state = true → overlap { k with stop := stop } b = false) →
      ∃ t, exec (.extend r (some i) stop) s = .next t ∧ ScheduleFrame s t ∧ (k.state = .ending → TransitionTold t i k .ending .active) ∧
        t.bks.bookings.get i = some { k with state := .active, stop := stop }) ∧
    (s.bks.bookings.get i = some k → k.state = .active ∨ k.state = .ending → ∀ old new m moved, old ≠ new →
      ∃ t, exec (.bookingReport (.edited i old new m moved)) s = .next t ∧ ScheduleFrame s t ∧
        (s.msc.clock ≠ .set → t.bks = s.bks) ∧ .attendeeEditReport new s.settings.lockPolicy ∈ t.flight ∧
        ∀ x, old.lists x = true → new.lists x = false → ∃ seats, x ∈ seats ∧ .droppedSeatsReport seats ∈ t.flight) ∧
    (s.current = some (i, k) ∨ s.nextBooking = some (i, k) → ∀ old new,
      ∃ t, exec (.bookingReport (.edited i old new true false)) s = .next t ∧ ScheduleFrame s t ∧ .agendaReport s.agenda ∈ t.flight) ∧
    (∃ t, exec (.bookingReport (.cancelled i true)) s = .next t ∧ ScheduleFrame s t ∧
      (s.currentSlot = none → .bookingCurrentReport false ∈ t.flight)) ∧
    (∃ t, exec (.setPreStartLead r (some n)) s = .next t ∧ ScheduleFrame { s with settings := t.settings } t ∧
      t.settings = { s.settings with preStartLead := (clampInt 0 30 n).toNat } ∧
      SentSome (.setPreStartLead r (some n)) s t (EndsWith (if 0 ≤ n ∧ n ≤ 30 then .blockResult r .ok []
        else .blockResult r .clamped (i16 (clampInt 0 30 n))))) ∧
    (exec (.setLockPolicy r (some s.settings.lockPolicy)) s =
      .next (Answered (.setLockPolicy r (some s.settings.lockPolicy)) r .ok [] s)) ∧
    (p ≠ s.settings.lockPolicy → s.current = none → exec (.setLockPolicy r (some p)) s = .next { s with
      settings := { s.settings with lockPolicy := p }
      flight := s.flight.erase (.setLockPolicy r (some p)) ++
        [.seatingReport (if p = .free then .openRoom else .lockedRoom) false, .blockResult r .ok []] }) ∧
    (∀ day second, day ≤ 32767 → second ≤ 86399 → s.pcu.room = .running → s.bks.bookings.get i = some k → k.state = .scheduled →
      (∀ j b, j ≠ i → s.bks.bookings.get j = some b → isLive b.state = false) → instantOf k.start ≤ instantOf k.stop →
      ∃ t, exec (.setClock r day second) s = .next t ∧
        let now := instant day second
        let graceEnd := instantOf k.stop + 60 * s.settings.overrunGrace
        let had := k.noShow = 0 ∨ k.checkedIn = true
        let becomes := fun b : Booking => t.bks.bookings.get i = some b ∧ TransitionTold t i k .scheduled b.state
        let noFlag := ∀ x, (s.tbc.seats.get x).flag.mic = false
        (now < leadInstant s.settings.preStartLead k → t.bks.bookings.get i = some k) ∧
        (noFlag → leadInstant s.settings.preStartLead k ≤ now → now < instantOf k.start → becomes { k with state := .pending }) ∧
        (noFlag → ¬ had → instantOf k.start ≤ now → now < instantOf k.stop → becomes { k with state := .awaiting }) ∧
        (had → instantOf k.start ≤ now → now < instantOf k.stop → becomes { k with state := .active }) ∧
        (had → instantOf k.stop ≤ now → now < graceEnd → becomes { k with state := .ending }) ∧
        (had → instantOf k.stop ≤ now → graceEnd ≤ now → becomes { k with state := .ended, actualEnd := some (day, second) }) ∧
        (¬ had → instantOf k.stop ≤ now → becomes { k with state := .released, actualEnd := some (day, second) })) ∧
    (p ≠ s.settings.lockPolicy → s.current = some (i, k) → exec (.setLockPolicy r (some p)) s = .next { s with
      settings := { s.settings with lockPolicy := p }
      flight := s.flight.erase (.setLockPolicy r (some p)) ++
        [.seatingReport (if p = .free then .openRoom else if k.state = .active ∨ k.state = .ending then
            (if k.plan.attendees = [] then .openRoom else .meeting) else .lockedRoom)
          (k.state = .active || k.state = .ending), .blockResult r .ok []] })

/-! ## The room lines (chapter 8) -/

/-- An output line that is not released and whose general level is HIGH follows its signal (R158, R159): SESSION-LAMP the meeting, LIVE-LAMP the
speaker list, ENDING-BLINK a blink that starts on and goes to its other phase at each phase end, of 512 units of 1/1024 s (log 4), and CHIME a pulse from its request
to its end. With general level LOW the pin is LOW whatever its signal, and a released line and an input drive nothing. -/
def Obligations.SignalsDriveTheLines : Prop :=
  ∀ (b : Bool) (c : LineConfig) (s : State), c.direction = .output → c.released = false → c.level = .high →
    let pinAfter := fun (command : Instr) (fn : LineFn) (level : PinLevel) =>
      ∃ t, exec command s = .next t ∧ t = { Taken command s with rln := t.rln } ∧ t.rln.lines = s.rln.lines ∧
        t.rln.pin { c with fn := fn } = some level ∧ t.rln.pin { c with fn := .general } = some .high ∧
        t.rln.pin { c with direction := .input } = none
    (∀ fn : LineFn, s.rln.pin { c with fn := fn, level := .low } = some .low ∧ s.rln.pin { c with fn := fn, released := true } = none ∧
      s.rln.pin { c with fn := fn, level := .low, released := true } = none) ∧
    pinAfter (.sessionLampReport b) .sessionLamp (if b then .high else .low) ∧
    pinAfter (.liveLampReport b) .liveLamp (if b then .low else .high) ∧
    pinAfter (.endingBlinkReport b) .endingBlink (if b then .high else .low) ∧
    pinAfter .chimeRequest .chime .high ∧
    (∃ t, exec .chimePulseEnd s = .next t ∧ t = { s with rln := t.rln } ∧ t.rln.pin { c with fn := .chime } = some .low) ∧
    (∀ k, s.rln.blink = some k → ∃ t, exec .endingBlinkPhase s = .next t ∧ t = { s with rln := t.rln } ∧
      t.rln.blink = some ⟨!k.on, 512⟩ ∧ t.rln.pin { c with fn := .endingBlink } = some (if k.on then .low else .high))

/-- A sampling of the lines (R160, R161, R162): at an input line a third sample in a row at another level settles it; an unknown level is settled with
no edge; a qualifying edge of a known level, under the choices RISE and FALL as under BOTH, sets the flag, is noticed when the line's notices are on,
and no other LINE notice is sent; it is reported when the line serves OCCUPANCY, and wakes a low room when the line's wake is on and not suppressed;
outputs are not read. The combined MUTE-SWITCH and SUPPLY-WARN levels are told once known and on a change. A sampling lowers the idle and sleep timers
by one unit, the model's choice (log 4). SET-LINE sets a fitting configuration and CLEAR-LINE-FLAGS clears the named lines' flags and suppressions
(R163, R164). -/
def Obligations.LinesAreSampledAndSet : Prop :=
  ∀ (r : CmdRef) (l : Line) (levels : Tab PinLevel 8) (n : Nat) (old : PinLevel) (e : LineEdit) (c : LineConfig) (ls : List Line) (s : State),
    let new := levels.get l
    (∃ t, exec (.lineSample levels) s = .next t ∧ t.settings = s.settings ∧ t.tbc = s.tbc ∧ t.scr = s.scr ∧ t.msc = s.msc ∧
      t.bks = s.bks ∧ t.mix = s.mix ∧ t.vdt = s.vdt ∧ t.pcu.idle = s.pcu.idle.map (· - 1) ∧ t.pcu.sleep = s.pcu.sleep.map (· - 1) ∧
      ((s.settings.line.get l).direction = .output → t.rln.lines.get l = s.rln.lines.get l) ∧
      ((s.settings.line.get l).direction = .input →
        ((s.rln.lines.get l).settled = some new → t.rln.lines.get l = { s.rln.lines.get l with run := none }) ∧
        ((s.rln.lines.get l).settled ≠ some new → (∀ m, (s.rln.lines.get l).run ≠ some (new, m)) →
          t.rln.lines.get l = { s.rln.lines.get l with run := some (new, 1) }) ∧
        ((s.rln.lines.get l).settled ≠ some new → (s.rln.lines.get l).run = some (new, n) → n < 2 →
          t.rln.lines.get l = { s.rln.lines.get l with run := some (new, n + 1) }) ∧
        ((s.rln.lines.get l).settled = none → (s.rln.lines.get l).run = some (new, 2) →
          t.rln.lines.get l = { s.rln.lines.get l with settled := some new, run := none }) ∧
        ((s.rln.lines.get l).settled = some old → old ≠ new → (s.rln.lines.get l).run = some (new, 2) →
          t.rln.lines.get l = { s.rln.lines.get l with
            settled := some new, run := none
            flag := (s.rln.lines.get l).flag ||
              includesEdge (s.settings.line.get l).edges (if new = .high then .rise else .fall) } ∧
          (includesEdge (s.settings.line.get l).edges (if new = .high then .rise else .fall) = true →
            ((s.settings.line.get l).notice = true →
              .notice .line (linePayload l (if new = .high then .rise else .fall) new (s.settings.line.get l).fn) ∈ t.flight) ∧
            ((s.settings.line.get l).fn = .occupancy → .occupancyEdge l (if new = .high then .rise else .fall) ∈ t.flight) ∧
            ((s.settings.line.get l).wake = true → (s.rln.lines.get l).suppressed = false →
              s.rln.power = some .quiet ∨ s.rln.power = some .sleep → .wakeRequest .line ∈ t.flight)))) ∧
      (∀ p, .notice .line p ∈ t.flight → .notice .line p ∈ s.flight ∨ ∃ k,
        let edge := if levels.get k = .high then LineEdge.rise else .fall
        (s.settings.line.get k).direction = .input ∧ (s.settings.line.get k).notice = true ∧
          includesEdge (s.settings.line.get k).edges edge = true ∧ p = linePayload k edge (levels.get k) (s.settings.line.get k).fn) ∧
      ((∀ k, (s.settings.line.get k).wake = false ∨ (s.rln.lines.get k).suppressed = true ∨
          (s.rln.power ≠ some .quiet ∧ s.rln.power ≠ some .sleep)) →
        .wakeRequest .line ∉ s.flight → .wakeRequest .line ∉ t.flight) ∧
      (∀ fn : LineFn,
        let told := fun u : State => if fn = .muteSwitch then u.rln.muteTold else u.rln.supplyTold
        let asserts := fun k : Line => (s.settings.line.get k).direction = .input ∧ (s.settings.line.get k).fn = fn ∧
          (t.rln.lines.get k).settled = some (if fn = .muteSwitch then .high else .low)
        fn = .muteSwitch ∨ fn = .supplyWarn →
          (told t = none ↔ told s = none ∧ ∃ k, (s.settings.line.get k).direction = .input ∧ (s.settings.line.get k).fn = fn ∧
            (t.rln.lines.get k).settled = none) ∧
          (∀ b, told t = some b → (b = true ↔ ∃ k, asserts k)) ∧
          (∀ b, told t = some b → told s ≠ some b →
            (fn = .muteSwitch → .muteSwitchAtMix b ∈ t.flight ∧ .muteSwitchAtFlc b ∈ t.flight) ∧
            (fn = .supplyWarn → .supplyWarningReport b ∈ t.flight)))) ∧
    (editedLine e (s.settings.line.get l) = some c → c.fits = true → ∃ t, exec (.setLine r (some l) e) s = .next t ∧
      t = { s with settings := { s.settings with line := t.settings.line }, rln := t.rln, flight := t.flight } ∧
      (∀ k, t.settings.line.get k = if k = l then c else s.settings.line.get k) ∧
      (∀ k, t.rln.lines.get k = if k = l ∧ ((s.settings.line.get l).direction ≠ c.direction ∨ (s.settings.line.get l).pullUp ≠ c.pullUp) then
        { s.rln.lines.get l with settled := none, run := none } else s.rln.lines.get k) ∧
      SentSome (.setLine r (some l) e) s t (EndsWith (.blockResult r .ok []))) ∧
    (editedLine e (s.settings.line.get l) = some c → c.fits = false →
      exec (.setLine r (some l) e) s = .next (Answered (.setLine r (some l) e) r .badArgument [] s)) ∧
    (∃ t, exec (.clearLineFlags r (some ls)) s = .next t ∧ t = { Answered (.clearLineFlags r (some ls)) r .ok [] s with rln := t.rln } ∧
      t.rln = { s.rln with lines := t.rln.lines } ∧
      ∀ k, t.rln.lines.get k = if ls = [] ∨ k ∈ ls then { s.rln.lines.get k with flag := false, suppressed := false } else s.rln.lines.get k)

/-! ## Power, clocks and start-up (chapter 9) -/

/-- The power state moves (R167, R168, R169, R171, R172, R175): the idle timer's end enters QUIET and starts the sleep timer, the sleep timer's end
enters SLEEP, a wake request leaves QUIET for POLL-PASS and SLEEP for POWER-SETTLE, POWER-SETTLE ends into ENUMERATION, and ENUMERATION, or the poll
that completes both branches' cycle in POLL-PASS, ends in FULL, where each port's waiting commands are handed over in their order. Every change goes
to the six blocks that hold it, and into the always-on domain, and sends its POWER notice with the old state, the new state and the cause: the idle
time, the sleep delay, the wake source, and for FULL, of which R171 names no cause, one of the model's own (log 7). That the poll of address 31 on the
second branch enters FULL in the same step is the model's choice (log 24). Timers count 1/1024 s (log 4). -/
def Obligations.PowerStateMoves : Prop :=
  ∀ (cause : PowerCause) (s : State),
    let tells := fun (t : State) (p : Power) (phase : Option Phase) =>
      ∀ b : BlockId, .powerStateReport b p phase ∈ t.flight
    (s.pcu.idle ≠ none → ∃ t, exec .idleTimerExpiry s = .next t ∧ PowerFrame s t ∧ t.pcu.power = some .quiet ∧ t.pcu.phase = none ∧
      t.pcu.idle = none ∧ t.pcu.keptPower = some .quiet ∧ tells t .quiet none ∧ PowerTold t s.pcu.power .quiet .idle ∧
      t.pcu.sleep = (if s.settings.sleepDelay = 0 then none else some (s.settings.sleepDelay * 60 * 1024))) ∧
    (s.pcu.idle = none → exec .idleTimerExpiry s = .next s) ∧
    (s.pcu.sleep ≠ none → ∃ t, exec .sleepTimerExpiry s = .next t ∧ PowerFrame s t ∧ t.pcu.power = some .sleep ∧ t.pcu.sleep = none ∧
      t.pcu.audio = .stopped ∧ t.pcu.keptPower = some .sleep ∧ tells t .sleep none ∧ PowerTold t s.pcu.power .sleep .sleepDelay) ∧
    (s.pcu.sleep = none → exec .sleepTimerExpiry s = .next s) ∧
    (s.pcu.power = some .quiet → ∃ t, exec (.wakeRequest cause) s = .next t ∧ PowerFrame s t ∧ t.pcu.power = some .waking ∧
      t.pcu.phase = some .pollPass ∧ t.pcu.sleep = none ∧ t.pcu.keptPower = some .waking ∧ tells t .waking (some .pollPass) ∧ PowerTold t (some .quiet) .waking cause) ∧
    (s.pcu.power = some .sleep → ∃ t, exec (.wakeRequest cause) s = .next t ∧ PowerFrame s t ∧ t.pcu.power = some .waking ∧
      t.pcu.phase = some .powerSettle ∧ t.pcu.audio = .settling ∧ t.pcu.keptPower = some .waking ∧ tells t .waking (some .powerSettle) ∧
      PowerTold t (some .sleep) .waking cause) ∧
    (s.pcu.power = some .full ∨ s.pcu.power = some .waking → exec (.wakeRequest cause) s = .next (Taken (.wakeRequest cause) s)) ∧
    (s.pcu.phase = some .powerSettle → s.pcu.audio = .running → ∃ t, exec .powerSettleEnd s = .next t ∧ PowerFrame s t ∧
      t.pcu = { s.pcu with phase := some .enumeration } ∧ tells t .waking (some .enumeration)) ∧
    (s.pcu.phase = some .enumeration → ∃ t, exec .enumerationEnd s = .next t ∧ PowerFrame s t ∧ t.pcu.power = some .full ∧
      t.pcu.phase = none ∧ t.pcu.keptPower = some .full ∧ tells t .full none ∧ PowerTold t s.pcu.power .full .settled ∧
      ∀ p, (((s.port p).inHand.filter (·.waitsFull)).map (handedRow p)).Sublist t.flight ∧
        t.port p = { s.port p with inHand := (s.port p).inHand.map fun h => { h with waitsFull := false } }) ∧
    (∀ b : Branch, s.polls = true → CompletesPass b s → ∃ t, exec (.poll b) s = .next t ∧ PowerFrame { s with tbc := t.tbc } t ∧
      t.pcu.power = some .full ∧ t.pcu.phase = none ∧ t.pcu.keptPower = some .full ∧ tells t .full none ∧ PowerTold t s.pcu.power .full .settled ∧
      ∀ p, (((s.port p).inHand.filter (·.waitsFull)).map (handedRow p)).Sublist t.flight ∧
        t.port p = { s.port p with inHand := (s.port p).inHand.map fun h => { h with waitsFull := false } })

/-- The crystals and the facts the idle timer hangs on (R136, R166, R167, R171, R173): a stopped room crystal marks the latch and loses the clock; a
stopped audio crystal silences the engine and the feeds and is noticed where it was meant to run, and a running one restarts the branches at address
0, with no notice (log 17, DEDUCED). A fact is held as reported, and a booking current wakes a room in QUIET or SLEEP, with the POWER notice (R171);
the idle timer, in 1/1024 s (log 4), starts when the room becomes unused in FULL and stops when it ceases to be. -/
def Obligations.CrystalsAndFacts : Prop :=
  ∀ (b : Bool) (s : State),
    let held := fun (c : Instr) (p : Pcu) (t : State) => t = { Taken c s with pcu := t.pcu } ∧
      t.pcu = { p with idle := t.pcu.idle } ∧ (t.pcu.unused = false → t.pcu.idle = none) ∧
      (s.pcu.unused = true → t.pcu.unused = true → t.pcu.idle = s.pcu.idle) ∧
      (s.pcu.unused = false → t.pcu.unused = true → t.pcu.idle =
        if s.pcu.power = some .full ∧ s.settings.idleTime ≠ 0 then some (s.settings.idleTime * 60 * 1024) else none)
    (s.pcu.room = .running → s.msc.clock ≠ .lost → exec .roomCrystalStopped s = .next { s with
      pcu := { s.pcu with room := .stopped, stopLatch := true }
      msc := { s.msc with clock := .lost }
      flight := s.flight ++ [.notice .clock (clockPayload { s.msc with clock := .lost })] }) ∧
    (exec .roomCrystalRunning s = .next { s with pcu := { s.pcu with room := .running } }) ∧
    (s.pcu.audio ≠ .stopped → ∃ t, exec .audioCrystalStopped s = .next t ∧ t.pcu = { s.pcu with audio := .stopped } ∧
      t = { s with pcu := t.pcu, mix := t.mix, tbc := t.tbc, flight := t.flight } ∧ t.mix.programSend = 0 ∧
      t.tbc = { s.tbc with seats := t.tbc.seats } ∧
      (∀ x, (t.mix.seats.get x).feed = none ∧ t.tbc.seats.get x = { s.tbc.seats.get x with feed := none }) ∧
      Raised s t (if s.pcu.power = some .full ∨ s.pcu.power = some .waking ∨ s.pcu.power = some .quiet then
        [.notice .power (audioPayload s.pcu.power .stopped)] else [])) ∧
    (s.pcu.audio ≠ .running → s.pcu.power ≠ some .sleep → ∃ t, exec .audioCrystalRunning s = .next t ∧
      t = { s with pcu := { s.pcu with audio := .running }, tbc := t.tbc } ∧ t.tbc.nextLeft = 0 ∧ t.tbc.nextRight = 0 ∧
      t.tbc.seats = s.tbc.seats) ∧
    (∃ t, exec (.floorEmptyReport b) s = .next t ∧ held (.floorEmptyReport b) { s.pcu with floorEmpty := b } t) ∧
    (∃ t, exec (.shareListEmptyReport b) s = .next t ∧ held (.shareListEmptyReport b) { s.pcu with shareEmpty := b } t) ∧
    (∃ t, exec (.bookingCurrentReport false) s = .next t ∧ held (.bookingCurrentReport false) { s.pcu with bookingCurrent := false } t) ∧
    (s.pcu.power = some .quiet → ∃ t, exec (.bookingCurrentReport true) s = .next t ∧ t.pcu.bookingCurrent = true ∧
      t.pcu.power = some .waking ∧ t.pcu.phase = some .pollPass ∧ PowerTold t (some .quiet) .waking .booking) ∧
    (s.pcu.power = some .sleep → ∃ t, exec (.bookingCurrentReport true) s = .next t ∧ t.pcu.bookingCurrent = true ∧
      t.pcu.power = some .waking ∧ t.pcu.phase = some .powerSettle ∧ t.pcu.audio = .settling ∧
      PowerTold t (some .sleep) .waking .booking)

/-- Each block takes the power state under its own rules (R8, R41, R58, R73, R82, R94, R103, R107, R162, R171): SLEEP leaves no seat present, in the floor's
held copy too (log 8, DEDUCED), QUIET empties the floor and the share list, cuts the engine to MUTE and blanks the screens, a low power state suppresses
the lines whose flag is set, and a phase of WAKING restarts both branches. -/
def Obligations.BlocksTakeThePowerState : Prop :=
  ∀ (phase : Option Phase) (s : State),
    (∃ t, exec (.powerStateReport .tbc .sleep phase) s = .next t ∧ t = { Taken (.powerStateReport .tbc .sleep phase) s with tbc := t.tbc } ∧
      t.tbc.power = some .sleep ∧ ∀ x, (t.tbc.seats.get x).presence = .absent ∧ (t.tbc.seats.get x).kind = .noUnit ∧
        (t.tbc.seats.get x).ringMark = .clear ∧ (t.tbc.seats.get x).plateMark = .clear ∧
        (t.tbc.seats.get x).flag = (s.tbc.seats.get x).flag) ∧
    (∃ t, exec (.powerStateReport .tbc .waking phase) s = .next t ∧ t = { Taken (.powerStateReport .tbc .waking phase) s with tbc := t.tbc } ∧
      t.tbc.power = some .waking ∧ t.tbc.phase = phase ∧ t.tbc.nextLeft = 0 ∧ t.tbc.nextRight = 0 ∧ t.tbc.seats = s.tbc.seats) ∧
    (∃ t, exec (.powerStateReport .flc .quiet phase) s = .next t ∧ FloorFrame s t ∧ FloorTold .report s t ∧ t.settings = s.settings ∧ t.flc.power = some .quiet ∧
      t.flc.speakers = [] ∧ t.flc.queue = [] ∧ t.flc.overrides = [] ∧ ∀ x, (t.flc.seats.get x).selfMuted = false ∧
        (t.flc.seats.get x).flash = none ∧ (t.flc.seats.get x).enabled = (s.flc.seats.get x).enabled) ∧
    (∃ t, exec (.powerStateReport .flc .sleep phase) s = .next t ∧ FloorFrame s t ∧ FloorTold .report s t ∧ t.settings = s.settings ∧ t.flc.power = some .sleep ∧
      t.flc.speakers = [] ∧ t.flc.queue = [] ∧ t.flc.overrides = [] ∧ ∀ x, (t.flc.seats.get x).online = false ∧
        (t.flc.seats.get x).enabled = (s.flc.seats.get x).enabled ∧ (t.flc.seats.get x).role = (s.flc.seats.get x).role) ∧
    (∃ t, exec (.powerStateReport .mix .sleep phase) s = .next t ∧ t = { Taken (.powerStateReport .mix .sleep phase) s with mix := t.mix } ∧
      t.mix.power = some .sleep ∧ ∀ x, (t.mix.seats.get x).online = false ∧ (t.mix.seats.get x).feed = none) ∧
    (∃ t, exec (.powerStateReport .mix .quiet phase) s = .next t ∧ t = { Taken (.powerStateReport .mix .quiet phase) s with mix := t.mix } ∧
      t.mix.power = some .quiet ∧ t.mix.programSend = 0 ∧ ∀ x, (t.mix.seats.get x).applied = .mute ∧ (t.mix.seats.get x).mult = 0 ∧
        (t.mix.seats.get x).feed = none ∧ (t.mix.seats.get x).target = (s.mix.seats.get x).target) ∧
    (∃ t, exec (.powerStateReport .vdt .quiet phase) s = .next t ∧ t = { Taken (.powerStateReport .vdt .quiet phase) s with vdt := t.vdt } ∧
      t.vdt.power = some .quiet ∧ ∀ x, (s.vdt.seats.get x).eligible s.vdt.power = true → (t.vdt.seats.get x).state = .quiet ∧
        (t.vdt.seats.get x).env = 0 ∧ (t.vdt.seats.get x).count = 0 ∧ (t.vdt.seats.get x).hold = 0) ∧
    (∃ t, exec (.powerStateReport .scr .quiet phase) s = .next t ∧ ScreenFrame s t ∧ ScreenTold .report s t ∧ t.settings = s.settings ∧ t.scr.power = .quiet ∧
      t.scr.shares = [] ∧ PlatesDerived t ∧ ScreensDerived t ∧ t.scr.points = s.scr.points) ∧
    (∃ t, exec (.powerStateReport .scr .sleep phase) s = .next t ∧ ScreenFrame s t ∧ ScreenTold .report s t ∧ t.scr.shares = [] ∧
      ∀ p, t.scr.points.get p = { signal := false, loss := none }) ∧
    (∃ t, exec (.powerStateReport .rln .quiet phase) s = .next t ∧ t = { Taken (.powerStateReport .rln .quiet phase) s with rln := t.rln } ∧
      t.rln.power = some .quiet ∧ ∀ l, t.rln.lines.get l = { s.rln.lines.get l with
        suppressed := (s.rln.lines.get l).suppressed || (s.rln.lines.get l).flag }) ∧
    (∃ t, exec (.powerStateReport .rln .full phase) s = .next t ∧ t = { Taken (.powerStateReport .rln .full phase) s with rln := t.rln } ∧
      ∀ l, t.rln.lines.get l = { s.rln.lines.get l with suppressed := false })

/-- The power commands (R168, R169, R170, R172, R174, R176): QUIET and SLEEP go to their state from FULL with no meeting on, with a POWER notice of every entry, the one to
QUIET on the way to SLEEP too, whose cause is COMMAND, on the entry to SLEEP by the model's choice (log 41); they answer STATE while a meeting is on,
and OK where the state is reached already; WAKE in FULL is answered OK; the idle time is set and is a restart of its timer, in 1/1024 s (log 4); the start
state is set. -/
def Obligations.PowerCommands : Prop :=
  ∀ (r : CmdRef) (n : Int) (v : StartState) (s : State),
    (s.pcu.power = some .full → s.meetingRuns = false → ∃ t, exec (.quiet r) s = .next t ∧ PowerFrame s t ∧ t.pcu.power = some .quiet ∧
      t.pcu.idle = none ∧ t.pcu.sleep = (if s.settings.sleepDelay = 0 then none else some (s.settings.sleepDelay * 60 * 1024)) ∧
      (∀ b, .powerStateReport b .quiet none ∈ t.flight) ∧ PowerTold t (some .full) .quiet .command ∧
      SentSome (.quiet r) s t (EndsWith (.blockResult r .ok []))) ∧
    (s.pcu.power = some .full ∨ s.pcu.power = some .quiet → s.meetingRuns = false → ∃ t, exec (.sleep r) s = .next t ∧ PowerFrame s t ∧
      t.pcu.power = some .sleep ∧ t.pcu.audio = .stopped ∧ t.pcu.sleep = none ∧
      (s.pcu.power = some .full → (∀ b, .powerStateReport b .quiet none ∈ t.flight) ∧ PowerTold t (some .full) .quiet .command) ∧
      (∀ b, .powerStateReport b .sleep none ∈ t.flight) ∧ PowerTold t (some .quiet) .sleep .command ∧
      SentSome (.sleep r) s t (EndsWith (.blockResult r .ok []))) ∧
    (s.pcu.power = some .full → s.meetingRuns = true →
      exec (.quiet r) s = .next (Answered (.quiet r) r .state [] s) ∧ exec (.sleep r) s = .next (Answered (.sleep r) r .state [] s)) ∧
    (s.pcu.power = some .quiet → exec (.quiet r) s = .next (Answered (.quiet r) r .ok [] s)) ∧
    (s.pcu.power = some .quiet → s.meetingRuns = true → exec (.sleep r) s = .next (Answered (.sleep r) r .state [] s)) ∧
    (s.pcu.power = some .sleep →
      exec (.quiet r) s = .next (Answered (.quiet r) r .ok [] s) ∧ exec (.sleep r) s = .next (Answered (.sleep r) r .ok [] s)) ∧
    (s.pcu.power = some .waking →
      exec (.quiet r) s = .next (Answered (.quiet r) r .state [] s) ∧ exec (.sleep r) s = .next (Answered (.sleep r) r .state [] s)) ∧
    (s.pcu.power = some .full → exec (.wake r) s = .next (Answered (.wake r) r .ok [] s)) ∧
    (∃ t, exec (.setIdleTime r (some n)) s = .next t ∧
      t = { NumberSet (.setIdleTime r (some n)) r 0 120 n { s.settings with idleTime := (clampInt 0 120 n).toNat } s with pcu := t.pcu } ∧
      t.pcu = { s.pcu with
        idle := if s.pcu.power = some .full ∧ s.pcu.unused = true ∧ 0 < n then some ((clampInt 0 120 n).toNat * 60 * 1024) else none }) ∧
    exec (.setStartState r (some v)) s =
      .next { Answered (.setStartState r (some v)) r .ok [] s with settings := { s.settings with startState := v } }

/-- A command that needs FULL, executed by its block in another state, waits in hand again: it has none of its effect, no result is sent, and a dark room is
asked to wake. R172 says so of a command that the hub takes; of one handed over before the room left FULL it is an inference (log 19, DEDUCED). -/
def Obligations.CommandsWaitForFull : Prop :=
  ∀ (r : CmdRef) (x : Seat) (p : Point) (n : NumArg) (b : Bool) (s : State), s.pcu.power ≠ some .full →
    ∀ c ∈ ([.grant r (some x), .grantNext r, .addRequest r (some x), .close r (some x), .closeSpeakers r, .clearQueue r,
        .setFloorMode r (some .voice) (some .now), .setOpenLimit r n (some .now), .setOverflow r (some .deny),
        .setPriorityPolicy r (some .duck), .setSpeechLimit r n n (some .warn), .enableSeat r (some x) (some b),
        .setRole r (some x) (some .chair) .keep, .setMaster r n, .setTrim r .all n, .setSpeakerLevel r n, .setSelfDuck r n, .setDuck r n,
        .setNom r (some b), .setExclusion r n, .setRemoteGain r (some .mute), .setVoiceThreshold r n, .setVoiceOnset r n, .setVoiceHold r n,
        .setLayout r (some .front) (some .full), .setSlot r (some .front0) (some .auto), .setCaption r (some b),
        .setPresenterPolicy r (some .free), .setFloorGrace r n, .shareStart r (some p), .shareStop r (some p),
        .approveShare r (some p) (some b), .wake r] : List Instr),
      ∃ t, exec c s = .next t ∧ t = { s with cph := { s.cph with ports := t.cph.ports }, flight := t.flight } ∧
        (∀ q, q ≠ r.port → t.cph.ports.get q = s.cph.ports.get q) ∧
        t.cph.ports.get r.port = { s.cph.ports.get r.port with
          inHand := (s.cph.ports.get r.port).inHand.map fun h => if h.tag = r.tag then { h with waitsFull := true } else h } ∧
        Sent c s t (if s.pcu.power = some .quiet ∨ s.pcu.power = some .sleep then [.wakeRequest .command] else [])

/-- RESET runs the start-up sequence (R133, R134, R174, R175): every block as its chapter gives it after a reset, over the settings and records that
the scan of the store found. A slot that was WRITING is torn, and every other slot keeps its durable content; a torn booking slot becomes free, a torn
participant slot empty and torn settings the factory ones; every booking loses its references to empty participant slots, and of a live booking the
start evaluation may then move the state, which may set the actual end; the torn slots in ascending order and then the bookings so changed head the
write queue, and the torn slots are counted. The room starts QUIET when the start state says so and no booking is current, and else WAKING in
POWER-SETTLE. That the whole sequence is one step, that it leaves the queue alone, and that the store is still held after it, since the first supply
report is in flight, are the model's choices (logs 1 and 2). -/
def Obligations.ResetStartsThePart : Prop :=
  ∀ (d : ResetDetectors) (roomRuns : Bool) (s : State), ∃ t, exec (.reset d roomRuns) s = .next t ∧
    t.settings = foundSettings s.bks ∧ t.bks.saveImage = t.settings ∧ t.pending = s.pending ∧
    (∀ p, t.bks.participants.get p = foundParticipant s.bks p) ∧
    (∀ i, foundBooking s.bks i = none → t.bks.bookings.get i = none) ∧
    (∀ i k, foundBooking s.bks i = some k → ∃ st e,
      t.bks.bookings.get i = some { withoutEmpty s.bks k with state := st, actualEnd := e } ∧
      (isLive k.state = false → st = k.state ∧ e = k.actualEnd)) ∧
    (∀ i, t.bks.durable.bookings.get i = if tornAtReset s.bks (.booking i) then .torn else s.bks.durable.bookings.get i) ∧
    (∀ p, t.bks.durable.participants.get p = if tornAtReset s.bks (.participant p) then .torn else s.bks.durable.participants.get p) ∧
    t.bks.durable.settings = (if tornAtReset s.bks .settings then .torn else s.bks.durable.settings) ∧
    (storeSlots.filter (tornAtReset s.bks) ++
      (allBSlots.filter fun i => (foundBooking s.bks i).any fun k => withoutEmpty s.bks k ≠ k).map .booking) <+: t.bks.queue ∧
    (∀ x, (t.tbc.seats.get x).presence = .absent ∧ (t.flc.seats.get x).enabled = false ∧ (t.flc.seats.get x).role = .ordinary ∧
      (t.mix.seats.get x).applied = .mute ∧ (t.mix.seats.get x).target = .mute ∧ (t.vdt.seats.get x).state = .quiet) ∧
    t.flc.speakers = [] ∧ t.flc.queue = [] ∧ t.flc.overrides = [] ∧ t.flc.mode = t.settings.defaultMode ∧
    t.flc.limit = t.settings.defaultLimit ∧ t.scr.shares = [] ∧ t.bks.supplyHeld = true ∧ t.bks.writing = none ∧ t.bks.waiters = [] ∧
    (∀ p, t.port p = {}) ∧ t.cph.holder = {} ∧
    t.pcu.start.cause = (match d with
      | .power => .power
      | .powerAndSupply => .power
      | .supply => .supply
      | .pin => .pin) ∧
    t.pcu.start.torn = (storeSlots.filter (tornAtReset s.bks)).length ∧
    t.pcu.start.wasAsleep = (d = .pin && s.pcu.keptPower = some .sleep) ∧
    .notice .power (powerPayload none t.pcu.power .start) ∈ t.flight ∧ t.pcu.room = (if roomRuns then .running else .stopped) ∧ t.pcu.stopLatch = false ∧
    ((t.pcu.power = some .quiet ∧ t.settings.startState = .quiet ∧ t.pcu.bookingCurrent = false) ∨
      (t.pcu.power = some .waking ∧ t.pcu.phase = some .powerSettle ∧ t.pcu.audio = .settling ∧
        (t.settings.startState = .full ∨ t.pcu.bookingCurrent = true))) ∧
    (d ≠ .pin → t.msc.clock ≠ .set)

/-! ## The client ports (chapter 10) -/

/-- Event records (R178, R179, R180, R182, R188): a notice is appended at every subscribed port that has a place, and marks the gap at one that has none; the
result of a command in hand becomes its completion record, with its cookie, in the command's place, with its payload whole when it has at most 1024
bytes; of a longer one it carries at most 1024 bytes that no rule gives (log 37). -/
def Obligations.RecordsReachThePorts : Prop :=
  ∀ (k : NoticeKind) (payload : List Byte) (r : CmdRef) (res : Result) (s : State),
    (∃ t, exec (.notice k payload) s = .next t ∧ t = { Taken (.notice k payload) s with cph := { s.cph with ports := t.cph.ports } } ∧
      ∀ p, (k ∉ (s.port p).subs → t.port p = s.port p) ∧
        (k ∈ (s.port p).subs → 32 ≤ (s.port p).places → t.port p = { s.port p with gap := true }) ∧
        (k ∈ (s.port p).subs → (s.port p).places < 32 → t.port p = { s.port p with
          events := (s.port p).events ++ [⟨true, (s.port p).gap, k.ctorIdx + 1, 0, 0, payload⟩], gap := false })) ∧
    (∀ h, (s.port r.port).inHand.find? (fun g => g.tag = r.tag) = some h → ∃ t q, exec (.blockResult r res payload) s = .next t ∧
      q.length ≤ 1024 ∧ (payload.length ≤ 1024 → q = payload) ∧
      t = { Taken (.blockResult r res payload) s with cph := { s.cph with ports := t.cph.ports } } ∧
      (∀ p, p ≠ r.port → t.port p = s.port p) ∧
      t.port r.port = { s.port r.port with
        inHand := (s.port r.port).inHand.filter fun g => g.tag ≠ r.tag
        events := (s.port r.port).events ++ [⟨false, (s.port r.port).gap, h.code, h.cookie, res.ctorIdx, q⟩]
        gap := false }) ∧
    ((∀ h ∈ (s.port r.port).inHand, h.tag ≠ r.tag) →
      exec (.blockResult r res payload) s = .next (Taken (.blockResult r res payload) s))

/-- Link frames (R172, R177, R178, R179, R182, R186, R188): a frame that ends before its answer changes nothing but the answer; a whole POST without a
good record is MALFORMED; one of a record is FULL at a port without a place, and where there is one it is TAKEN: an unknown code is completed UNKNOWN,
a command whose authority the port does not hold NO-AUTHORITY, one that needs FULL waits in hand outside FULL and asks a dark room to wake, and every
other command is handed over, one of the hub's own too, which then acts in a later step by the model's choice (log 57); a FETCH returns the oldest
record and removes it; a PORT-RESET empties the port, takes back the commands it had handed over, and frees its authorities, with one AUTHORITY notice
when it held any (R186), and a damaged one changes nothing. -/
def Obligations.FramesAreAnswered : Prop :=
  ∀ (p : Port) (f : Frame) (c : CommandRecord) (s : State),
    (f.close = .beforeAnswer → ∃ t, exec (.post p f) s = .next t ∧ t = { s with cph := { s.cph with ports := t.cph.ports } } ∧
      t.port p = { s.port p with answer := [] } ∧ exec (.fetch p f) s = .next t) ∧
    (s.pcu.power ≠ none → f.close = .whole → (checkedBody f.request).bind postRecord = some c → (s.port p).isFull = true →
      ∃ t, exec (.post p f) s = .next t ∧ t = { s with cph := { s.cph with ports := t.cph.ports } } ∧
        (∀ q, q ≠ p → t.port q = s.port q) ∧ t.port p = { s.port p with answer := [1] }) ∧
    (s.pcu.power ≠ none → f.close = .whole → (checkedBody f.request).bind postRecord = none →
      ∃ t, exec (.post p f) s = .next t ∧ t = { s with cph := { s.cph with ports := t.cph.ports } } ∧
        (∀ q, q ≠ p → t.port q = s.port q) ∧ t.port p = { s.port p with answer := [2] }) ∧
    (∀ res : Result, s.pcu.power ≠ none → f.close = .whole → (checkedBody f.request).bind postRecord = some c → (s.port p).isFull = false →
      (commandOf c.code = none ∧ res = .unknown) ∨
        (∃ k a, commandOf c.code = some k ∧ k.authority = some a ∧ s.cph.holder.get a ≠ some p ∧ res = .noAuthority) →
      ∃ t, exec (.post p f) s = .next t ∧ t = { s with cph := { s.cph with ports := t.cph.ports, nextTag := s.cph.nextTag + 1 } } ∧
        (∀ q, q ≠ p → t.port q = s.port q) ∧ t.port p = { s.port p with
          answer := [0]
          events := (s.port p).events ++ [⟨false, (s.port p).gap, c.code, BitVec.ofNat 32 c.cookie, res.ctorIdx, []⟩]
          gap := false }) ∧
    (∀ k row, s.pcu.power ≠ none → s.pcu.power ≠ some .full → f.close = .whole →
      (checkedBody f.request).bind postRecord = some c → (s.port p).isFull = false → commandOf c.code = some k → k.needsFull = true →
      (∀ a ∈ k.authority, s.cph.holder.get a = some p) → k.row ⟨p, s.cph.nextTag⟩ c.params = some row →
      ∃ t, exec (.post p f) s = .next t ∧ t = { s with cph := t.cph, flight := t.flight } ∧ (∀ q, q ≠ p → t.port q = s.port q) ∧
        t.cph.holder = s.cph.holder ∧ t.cph.nextTag = s.cph.nextTag + 1 ∧
        t.port p = { s.port p with
          answer := [0]
          inHand := (s.port p).inHand ++ [⟨s.cph.nextTag, c.code, BitVec.ofNat 32 c.cookie, some row, true⟩] } ∧
        Raised s t (if s.pcu.power = some .quiet ∨ s.pcu.power = some .sleep then [.wakeRequest .command] else [])) ∧
    (∀ k row, s.pcu.power ≠ none → s.pcu.power = some .full ∨ k.needsFull = false → f.close = .whole → (checkedBody f.request).bind postRecord = some c → (s.port p).isFull = false →
      commandOf c.code = some k → (∀ a ∈ k.authority, s.cph.holder.get a = some p) → k.row ⟨p, s.cph.nextTag⟩ c.params = some row →
      ∃ t, exec (.post p f) s = .next t ∧ (∀ q, q ≠ p → t.port q = s.port q) ∧ t.cph.nextTag = s.cph.nextTag + 1 ∧
        t.port p = { s.port p with
          answer := [0]
          inHand := (s.port p).inHand ++ [⟨s.cph.nextTag, c.code, BitVec.ofNat 32 c.cookie, some row, false⟩] } ∧
        Raised s t [row]) ∧
    (s.pcu.power ≠ none → f.close = .whole → isShortFrame 2 f.request = true → ∀ e rest, (s.port p).events = e :: rest →
      ∃ t, exec (.fetch p f) s = .next t ∧ t = { s with cph := { s.cph with ports := t.cph.ports } } ∧
        (∀ q, q ≠ p → t.port q = s.port q) ∧ t.port p = { s.port p with events := rest, answer := recordAnswer e }) ∧
    (f.close = .whole → isShortFrame 3 f.request = true → ∃ t, exec (.portReset p f) s = .next t ∧
      t = { s with cph := t.cph, flight := t.flight } ∧ (∀ q, q ≠ p → t.port q = s.port q) ∧
      (t.port p).inHand = [] ∧ (t.port p).events = [] ∧ (t.port p).gap = false ∧ (t.port p).subs = [.authority] ∧
      (t.port p).timer = none ∧ (t.port p).token = none ∧ (t.port p).window = (s.port p).window ∧
      t.flight = s.flight.filter (fun c => c ∉ (s.port p).inHand.map (handedRow p)) ++ authorityNotice .portReset p s t ∧
      ∀ a, t.cph.holder.get a = if s.cph.holder.get a = some p then none else s.cph.holder.get a) ∧
    (f.close ≠ .whole ∨ isShortFrame 3 f.request = false → exec (.portReset p f) s = .next s)

/-- Authority (R181, R183, R184, R185, R186): CLAIM, whose window is brought to 1 to 60 seconds, gives the port every wanted authority that no port
holds, and starts its presence timer, in 1/1024 s (log 4), with no token accepted, when the port then holds any; its result is OK, or CLAMPED when the
window was, and says what the port then holds and which wanted ones others hold, with the window in force after CLAMPED (log 18). RELEASE frees those
named, and all with none named, says what is left, and with nothing left stops the timer and forgets the token; PRESENCE with the other token starts
the timer again, with the last one is REPEATED, and of a port that holds nothing is STATE; the end of the timer frees all; SUBSCRIBE keeps AUTHORITY
in the set and answers the set. A CLAIM, RELEASE or expiry that changes the table sends one AUTHORITY notice with its cause, the port and the holders,
before the result, and nothing else is sent; a name or token that is none, and a CLAIM of nothing, is BAD-ARGUMENT and changes nothing. -/
def Obligations.AuthorityIsHeldByPorts : Prop :=
  ∀ (r : CmdRef) (a : Authority) (wanted : List Authority) (w : NumArg) (n : Int) (k : Token) (kinds : List NoticeKind) (s : State),
    let inRange := 1 ≤ n ∧ n ≤ 60
    let window := (clampInt 1 60 n).toNat
    (wanted ≠ [] → ∃ t, exec (.claim r (some wanted) (some n)) s = .next t ∧
      PortFrame s t ∧ t.pcu = s.pcu ∧ (∀ q, q ≠ r.port → t.port q = s.port q) ∧
      (∀ b, t.cph.holder.get b = if b ∈ wanted ∧ s.cph.holder.get b = none then some r.port else s.cph.holder.get b) ∧
      (authoritiesOf t r.port ≠ [] →
        t.port r.port = { s.port r.port with window := window, timer := some (window * 1024), token := none }) ∧
      (authoritiesOf t r.port = [] → t.port r.port = { s.port r.port with window := window, timer := none }) ∧
      Sent (.claim r (some wanted) (some n)) s t (authorityNotice .claim r.port s t ++
        [.blockResult r (if inRange then .ok else .clamped) (authoritiesField (authoritiesOf t r.port) ++
          authoritiesField (authorityNames.filter fun b => b ∈ wanted ∧ t.cph.holder.get b ≠ none ∧ t.cph.holder.get b ≠ some r.port) ++
          if inRange then [] else u16 window)])) ∧
    (a ∈ wanted → s.cph.holder.get a = none → ∃ t, exec (.claim r (some wanted) (some n)) s = .next t ∧
      t.cph.holder.get a = some r.port ∧ .notice .authority (authorityPayload .claim r.port t.cph.holder) ∈ t.flight) ∧
    (exec (.claim r (some []) w) s = .next (Answered (.claim r (some []) w) r .badArgument [] s)) ∧
    (exec (.claim r none w) s = .next (Answered (.claim r none w) r .badArgument [] s)) ∧
    (∃ t, exec (.release r (some wanted)) s = .next t ∧ PortFrame s t ∧ t.pcu = s.pcu ∧ (∀ q, q ≠ r.port → t.port q = s.port q) ∧
      (∀ b, t.cph.holder.get b = if s.cph.holder.get b = some r.port ∧ (wanted = [] ∨ b ∈ wanted) then none else s.cph.holder.get b) ∧
      (authoritiesOf t r.port = [] → t.port r.port = { s.port r.port with timer := none, token := none }) ∧
      (authoritiesOf t r.port ≠ [] → t.port r.port = s.port r.port) ∧
      Sent (.release r (some wanted)) s t (authorityNotice .release r.port s t ++
        [.blockResult r .ok (authoritiesField (authoritiesOf t r.port))])) ∧
    (exec (.release r none) s = .next (Answered (.release r none) r .badArgument [] s)) ∧
    (s.cph.holder.get a = some r.port → (s.port r.port).token ≠ some k → ∃ t, exec (.presence r (some k)) s = .next t ∧
      t = { Answered (.presence r (some k)) r .ok [] s with cph := t.cph } ∧ t.cph.holder = s.cph.holder ∧
      (∀ q, q ≠ r.port → t.port q = s.port q) ∧
      t.port r.port = { s.port r.port with token := some k, timer := some ((s.port r.port).window * 1024) }) ∧
    (s.cph.holder.get a = some r.port → (s.port r.port).token = some k →
      exec (.presence r (some k)) s = .next (Answered (.presence r (some k)) r .repeated [] s)) ∧
    (authoritiesOf s r.port = [] → exec (.presence r (some k)) s = .next (Answered (.presence r (some k)) r .state [] s)) ∧
    (exec (.presence r none) s = .next (Answered (.presence r none) r .badArgument [] s)) ∧
    ((s.port r.port).timer ≠ none → ∃ t, exec (.presenceTimerExpiry r.port) s = .next t ∧ PortFrame s t ∧ t.pcu = s.pcu ∧
      t.port r.port = { s.port r.port with timer := none, token := none } ∧ (∀ q, q ≠ r.port → t.port q = s.port q) ∧
      (∀ b, t.cph.holder.get b = if s.cph.holder.get b = some r.port then none else s.cph.holder.get b) ∧
      Raised s t (authorityNotice .expiry r.port s t)) ∧
    ((s.port r.port).timer = none → exec (.presenceTimerExpiry r.port) s = .next s) ∧
    (∃ t, exec (.subscribe r (some kinds)) s = .next t ∧ PortFrame s t ∧ (∀ q, q ≠ r.port → t.port q = s.port q) ∧
      t.port r.port = { s.port r.port with subs := (t.port r.port).subs } ∧
      (∀ j, j ∈ (t.port r.port).subs ↔ j = .authority ∨ j ∈ kinds) ∧
      Sent (.subscribe r (some kinds)) s t [.blockResult r .ok (kindsField (t.port r.port).subs)]) ∧
    (exec (.subscribe r none) s = .next (Answered (.subscribe r none) r .badArgument [] s))

/-! ## Invariants -/

/-- The machine right after reset meets every invariant below, and one RESET from it leaves the floor, the share list and the ports sound. -/
def Obligations.ResetMeetsTheInvariants : Prop :=
  GainsInRange State.reset ∧ ClockInRange State.reset ∧ MarksClearUnlessOnline State.reset ∧ PortsInBounds State.reset ∧
    StoreQueueSound State.reset ∧ FloorSound State.reset.flc ∧ SharesSound State.reset.scr ∧ SlotsInForce State.reset ∧ PageSound State.reset.scr ∧
    ∀ d roomRuns t, exec (.reset d roomRuns) State.reset = .next t →
      FloorSound t.flc ∧ SharesSound t.scr ∧ SlotsInForce t ∧ PageSound t.scr ∧ PortsInBounds t

/-- Every step keeps the gains within −160..24 or MUTE, the clock within its days and seconds, and the marks of a seat that is not ONLINE CLEAR (R13, R60,
R63, R135). -/
def Obligations.StepsKeepTheRanges : Prop :=
  ∀ s t : State, step s = .next t →
    (GainsInRange s → GainsInRange t) ∧ (ClockInRange s → ClockInRange t) ∧ (MarksClearUnlessOnline s → MarksClearUnlessOnline t)

/-- Every step keeps each port within 8 commands in hand and 32 places (R178, R179, R180), and the write queue free of repeats and of the slot
being written (R128, R129). -/
def Obligations.StepsKeepTheQueues : Prop :=
  ∀ s t : State, step s = .next t → (PortsInBounds s → PortsInBounds t) ∧ (StoreQueueSound s → StoreQueueSound t)

/-- Every step keeps the floor's collections sound, who speaks or waits being enabled and ONLINE (R21, R22, R26, R31, R32, R35, R39, R40, R41). -/
def Obligations.StepsKeepTheFloorSound : Prop :=
  ∀ s t : State, FloorSound s.flc → step s = .next t → FloorSound t.flc

/-- Every step keeps one entry at most for a share point and for a slot (R98, R100), keeps every slot that is held in its layout and of source AUTO (R100,
R104), and keeps the agenda page as the agenda content makes it read (R106). -/
def Obligations.StepsKeepTheSharesSound : Prop :=
  ∀ s t : State, step s = .next t →
    (SharesSound s.scr → SharesSound t.scr) ∧ (SlotsInForce s → SlotsInForce t) ∧ (PageSound s.scr → PageSound t.scr)
end

