-- ==== Sys2Proof/Laws/State.lean ====
section
/-! SUPPORT. One lemma per field per update of the state, true by unfolding the update once. -/

namespace Sys2Proof.Machine

open Sys2Proof

@[simp] theorem State.emit_settings (s : State) (l : List Instr) : (s.emit l).settings = s.settings := rfl

@[simp] theorem State.emit_tbc (s : State) (l : List Instr) : (s.emit l).tbc = s.tbc := rfl

@[simp] theorem State.emit_flc (s : State) (l : List Instr) : (s.emit l).flc = s.flc := rfl

@[simp] theorem State.emit_mix (s : State) (l : List Instr) : (s.emit l).mix = s.mix := rfl

@[simp] theorem State.emit_vdt (s : State) (l : List Instr) : (s.emit l).vdt = s.vdt := rfl

@[simp] theorem State.emit_scr (s : State) (l : List Instr) : (s.emit l).scr = s.scr := rfl

@[simp] theorem State.emit_bks (s : State) (l : List Instr) : (s.emit l).bks = s.bks := rfl

@[simp] theorem State.emit_msc (s : State) (l : List Instr) : (s.emit l).msc = s.msc := rfl

@[simp] theorem State.emit_rln (s : State) (l : List Instr) : (s.emit l).rln = s.rln := rfl

@[simp] theorem State.emit_pcu (s : State) (l : List Instr) : (s.emit l).pcu = s.pcu := rfl

@[simp] theorem State.emit_cph (s : State) (l : List Instr) : (s.emit l).cph = s.cph := rfl

@[simp] theorem State.emit_flight (s : State) (l : List Instr) : (s.emit l).flight = s.flight ++ l := rfl

@[simp] theorem State.emit_pending (s : State) (l : List Instr) : (s.emit l).pending = s.pending := rfl

@[simp] theorem State.taking_settings (s : State) (c : Instr) : (s.taking c).settings = s.settings := rfl

@[simp] theorem State.taking_tbc (s : State) (c : Instr) : (s.taking c).tbc = s.tbc := rfl

@[simp] theorem State.taking_flc (s : State) (c : Instr) : (s.taking c).flc = s.flc := rfl

@[simp] theorem State.taking_mix (s : State) (c : Instr) : (s.taking c).mix = s.mix := rfl

@[simp] theorem State.taking_vdt (s : State) (c : Instr) : (s.taking c).vdt = s.vdt := rfl

@[simp] theorem State.taking_scr (s : State) (c : Instr) : (s.taking c).scr = s.scr := rfl

@[simp] theorem State.taking_bks (s : State) (c : Instr) : (s.taking c).bks = s.bks := rfl

@[simp] theorem State.taking_msc (s : State) (c : Instr) : (s.taking c).msc = s.msc := rfl

@[simp] theorem State.taking_rln (s : State) (c : Instr) : (s.taking c).rln = s.rln := rfl

@[simp] theorem State.taking_pcu (s : State) (c : Instr) : (s.taking c).pcu = s.pcu := rfl

@[simp] theorem State.taking_cph (s : State) (c : Instr) : (s.taking c).cph = s.cph := rfl

@[simp] theorem State.taking_flight (s : State) (c : Instr) : (s.taking c).flight = s.flight.erase c := rfl

@[simp] theorem State.taking_pending (s : State) (c : Instr) : (s.taking c).pending = s.pending := rfl

@[simp] theorem State.notify_settings (s : State) (k : NoticeKind) (p : List Byte) : (s.notify k p).settings = s.settings := rfl

@[simp] theorem State.notify_tbc (s : State) (k : NoticeKind) (p : List Byte) : (s.notify k p).tbc = s.tbc := rfl

@[simp] theorem State.notify_flc (s : State) (k : NoticeKind) (p : List Byte) : (s.notify k p).flc = s.flc := rfl

@[simp] theorem State.notify_mix (s : State) (k : NoticeKind) (p : List Byte) : (s.notify k p).mix = s.mix := rfl

@[simp] theorem State.notify_vdt (s : State) (k : NoticeKind) (p : List Byte) : (s.notify k p).vdt = s.vdt := rfl

@[simp] theorem State.notify_scr (s : State) (k : NoticeKind) (p : List Byte) : (s.notify k p).scr = s.scr := rfl

@[simp] theorem State.notify_bks (s : State) (k : NoticeKind) (p : List Byte) : (s.notify k p).bks = s.bks := rfl

@[simp] theorem State.notify_msc (s : State) (k : NoticeKind) (p : List Byte) : (s.notify k p).msc = s.msc := rfl

@[simp] theorem State.notify_rln (s : State) (k : NoticeKind) (p : List Byte) : (s.notify k p).rln = s.rln := rfl

@[simp] theorem State.notify_pcu (s : State) (k : NoticeKind) (p : List Byte) : (s.notify k p).pcu = s.pcu := rfl

@[simp] theorem State.notify_cph (s : State) (k : NoticeKind) (p : List Byte) : (s.notify k p).cph = s.cph := rfl

@[simp] theorem State.notify_flight (s : State) (k : NoticeKind) (p : List Byte) : (s.notify k p).flight = s.flight ++ [.notice k p] := rfl

@[simp] theorem State.notify_pending (s : State) (k : NoticeKind) (p : List Byte) : (s.notify k p).pending = s.pending := rfl

@[simp] theorem State.reply_settings (s : State) (r : CmdRef) (res : Result) (p : List Byte) : (s.reply r res p).settings = s.settings := rfl

@[simp] theorem State.reply_tbc (s : State) (r : CmdRef) (res : Result) (p : List Byte) : (s.reply r res p).tbc = s.tbc := rfl

@[simp] theorem State.reply_flc (s : State) (r : CmdRef) (res : Result) (p : List Byte) : (s.reply r res p).flc = s.flc := rfl

@[simp] theorem State.reply_mix (s : State) (r : CmdRef) (res : Result) (p : List Byte) : (s.reply r res p).mix = s.mix := rfl

@[simp] theorem State.reply_vdt (s : State) (r : CmdRef) (res : Result) (p : List Byte) : (s.reply r res p).vdt = s.vdt := rfl

@[simp] theorem State.reply_scr (s : State) (r : CmdRef) (res : Result) (p : List Byte) : (s.reply r res p).scr = s.scr := rfl

@[simp] theorem State.reply_bks (s : State) (r : CmdRef) (res : Result) (p : List Byte) : (s.reply r res p).bks = s.bks := rfl

@[simp] theorem State.reply_msc (s : State) (r : CmdRef) (res : Result) (p : List Byte) : (s.reply r res p).msc = s.msc := rfl

@[simp] theorem State.reply_rln (s : State) (r : CmdRef) (res : Result) (p : List Byte) : (s.reply r res p).rln = s.rln := rfl

@[simp] theorem State.reply_pcu (s : State) (r : CmdRef) (res : Result) (p : List Byte) : (s.reply r res p).pcu = s.pcu := rfl

@[simp] theorem State.reply_cph (s : State) (r : CmdRef) (res : Result) (p : List Byte) : (s.reply r res p).cph = s.cph := rfl

@[simp] theorem State.reply_flight (s : State) (r : CmdRef) (res : Result) (p : List Byte) : (s.reply r res p).flight = s.flight ++ [.blockResult r res p] := rfl

@[simp] theorem State.reply_pending (s : State) (r : CmdRef) (res : Result) (p : List Byte) : (s.reply r res p).pending = s.pending := rfl

@[simp] theorem State.putTbcSeat_settings (s : State) (x : Seat) (v : TbcSeat) : (s.putTbcSeat x v).settings = s.settings := rfl

@[simp] theorem State.putTbcSeat_tbc (s : State) (x : Seat) (v : TbcSeat) : (s.putTbcSeat x v).tbc = s.tbc.put x v := rfl

@[simp] theorem State.putTbcSeat_flc (s : State) (x : Seat) (v : TbcSeat) : (s.putTbcSeat x v).flc = s.flc := rfl

@[simp] theorem State.putTbcSeat_mix (s : State) (x : Seat) (v : TbcSeat) : (s.putTbcSeat x v).mix = s.mix := rfl

@[simp] theorem State.putTbcSeat_vdt (s : State) (x : Seat) (v : TbcSeat) : (s.putTbcSeat x v).vdt = s.vdt := rfl

@[simp] theorem State.putTbcSeat_scr (s : State) (x : Seat) (v : TbcSeat) : (s.putTbcSeat x v).scr = s.scr := rfl

@[simp] theorem State.putTbcSeat_bks (s : State) (x : Seat) (v : TbcSeat) : (s.putTbcSeat x v).bks = s.bks := rfl

@[simp] theorem State.putTbcSeat_msc (s : State) (x : Seat) (v : TbcSeat) : (s.putTbcSeat x v).msc = s.msc := rfl

@[simp] theorem State.putTbcSeat_rln (s : State) (x : Seat) (v : TbcSeat) : (s.putTbcSeat x v).rln = s.rln := rfl

@[simp] theorem State.putTbcSeat_pcu (s : State) (x : Seat) (v : TbcSeat) : (s.putTbcSeat x v).pcu = s.pcu := rfl

@[simp] theorem State.putTbcSeat_cph (s : State) (x : Seat) (v : TbcSeat) : (s.putTbcSeat x v).cph = s.cph := rfl

@[simp] theorem State.putTbcSeat_flight (s : State) (x : Seat) (v : TbcSeat) : (s.putTbcSeat x v).flight = s.flight := rfl

@[simp] theorem State.putTbcSeat_pending (s : State) (x : Seat) (v : TbcSeat) : (s.putTbcSeat x v).pending = s.pending := rfl

@[simp] theorem State.putPort_settings (s : State) (p : Port) (v : PortState) : (s.putPort p v).settings = s.settings := rfl

@[simp] theorem State.putPort_tbc (s : State) (p : Port) (v : PortState) : (s.putPort p v).tbc = s.tbc := rfl

@[simp] theorem State.putPort_flc (s : State) (p : Port) (v : PortState) : (s.putPort p v).flc = s.flc := rfl

@[simp] theorem State.putPort_mix (s : State) (p : Port) (v : PortState) : (s.putPort p v).mix = s.mix := rfl

@[simp] theorem State.putPort_vdt (s : State) (p : Port) (v : PortState) : (s.putPort p v).vdt = s.vdt := rfl

@[simp] theorem State.putPort_scr (s : State) (p : Port) (v : PortState) : (s.putPort p v).scr = s.scr := rfl

@[simp] theorem State.putPort_bks (s : State) (p : Port) (v : PortState) : (s.putPort p v).bks = s.bks := rfl

@[simp] theorem State.putPort_msc (s : State) (p : Port) (v : PortState) : (s.putPort p v).msc = s.msc := rfl

@[simp] theorem State.putPort_rln (s : State) (p : Port) (v : PortState) : (s.putPort p v).rln = s.rln := rfl

@[simp] theorem State.putPort_pcu (s : State) (p : Port) (v : PortState) : (s.putPort p v).pcu = s.pcu := rfl

@[simp] theorem State.putPort_cph (s : State) (p : Port) (v : PortState) : (s.putPort p v).cph = { s.cph with ports := s.cph.ports.upd p v } := rfl

@[simp] theorem State.putPort_flight (s : State) (p : Port) (v : PortState) : (s.putPort p v).flight = s.flight := rfl

@[simp] theorem State.putPort_pending (s : State) (p : Port) (v : PortState) : (s.putPort p v).pending = s.pending := rfl

@[simp] theorem State.restartIdle_settings (s : State) : (s.restartIdle).settings = s.settings := rfl

@[simp] theorem State.restartIdle_tbc (s : State) : (s.restartIdle).tbc = s.tbc := rfl

@[simp] theorem State.restartIdle_flc (s : State) : (s.restartIdle).flc = s.flc := rfl

@[simp] theorem State.restartIdle_mix (s : State) : (s.restartIdle).mix = s.mix := rfl

@[simp] theorem State.restartIdle_vdt (s : State) : (s.restartIdle).vdt = s.vdt := rfl

@[simp] theorem State.restartIdle_scr (s : State) : (s.restartIdle).scr = s.scr := rfl

@[simp] theorem State.restartIdle_bks (s : State) : (s.restartIdle).bks = s.bks := rfl

@[simp] theorem State.restartIdle_msc (s : State) : (s.restartIdle).msc = s.msc := rfl

@[simp] theorem State.restartIdle_rln (s : State) : (s.restartIdle).rln = s.rln := rfl

@[simp] theorem State.restartIdle_pcu (s : State) : (s.restartIdle).pcu = { s.pcu with idle := idleStarted s.settings.idleTime s.pcu } := rfl

@[simp] theorem State.restartIdle_cph (s : State) : (s.restartIdle).cph = s.cph := rfl

@[simp] theorem State.restartIdle_flight (s : State) : (s.restartIdle).flight = s.flight := rfl

@[simp] theorem State.restartIdle_pending (s : State) : (s.restartIdle).pending = s.pending := rfl

@[simp] theorem State.setBooking_settings (s : State) (i : BSlot) (v : Option Booking) : (s.setBooking i v).settings = s.settings := rfl

@[simp] theorem State.setBooking_tbc (s : State) (i : BSlot) (v : Option Booking) : (s.setBooking i v).tbc = s.tbc := rfl

@[simp] theorem State.setBooking_flc (s : State) (i : BSlot) (v : Option Booking) : (s.setBooking i v).flc = s.flc := rfl

@[simp] theorem State.setBooking_mix (s : State) (i : BSlot) (v : Option Booking) : (s.setBooking i v).mix = s.mix := rfl

@[simp] theorem State.setBooking_vdt (s : State) (i : BSlot) (v : Option Booking) : (s.setBooking i v).vdt = s.vdt := rfl

@[simp] theorem State.setBooking_scr (s : State) (i : BSlot) (v : Option Booking) : (s.setBooking i v).scr = s.scr := rfl

@[simp] theorem State.setBooking_bks (s : State) (i : BSlot) (v : Option Booking) : (s.setBooking i v).bks = s.bks.setBooking i v := rfl

@[simp] theorem State.setBooking_msc (s : State) (i : BSlot) (v : Option Booking) : (s.setBooking i v).msc = s.msc := rfl

@[simp] theorem State.setBooking_rln (s : State) (i : BSlot) (v : Option Booking) : (s.setBooking i v).rln = s.rln := rfl

@[simp] theorem State.setBooking_pcu (s : State) (i : BSlot) (v : Option Booking) : (s.setBooking i v).pcu = s.pcu := rfl

@[simp] theorem State.setBooking_cph (s : State) (i : BSlot) (v : Option Booking) : (s.setBooking i v).cph = s.cph := rfl

@[simp] theorem State.setBooking_flight (s : State) (i : BSlot) (v : Option Booking) : (s.setBooking i v).flight = s.flight := rfl

@[simp] theorem State.setBooking_pending (s : State) (i : BSlot) (v : Option Booking) : (s.setBooking i v).pending = s.pending := rfl

@[simp] theorem State.tellPower_settings (s : State) (p : Power) (ph : Option Phase) : (s.tellPower p ph).settings = s.settings := rfl

@[simp] theorem State.tellPower_tbc (s : State) (p : Power) (ph : Option Phase) : (s.tellPower p ph).tbc = s.tbc := rfl

@[simp] theorem State.tellPower_flc (s : State) (p : Power) (ph : Option Phase) : (s.tellPower p ph).flc = s.flc := rfl

@[simp] theorem State.tellPower_mix (s : State) (p : Power) (ph : Option Phase) : (s.tellPower p ph).mix = s.mix := rfl

@[simp] theorem State.tellPower_vdt (s : State) (p : Power) (ph : Option Phase) : (s.tellPower p ph).vdt = s.vdt := rfl

@[simp] theorem State.tellPower_scr (s : State) (p : Power) (ph : Option Phase) : (s.tellPower p ph).scr = s.scr := rfl

@[simp] theorem State.tellPower_bks (s : State) (p : Power) (ph : Option Phase) : (s.tellPower p ph).bks = s.bks := rfl

@[simp] theorem State.tellPower_msc (s : State) (p : Power) (ph : Option Phase) : (s.tellPower p ph).msc = s.msc := rfl

@[simp] theorem State.tellPower_rln (s : State) (p : Power) (ph : Option Phase) : (s.tellPower p ph).rln = s.rln := rfl

@[simp] theorem State.tellPower_pcu (s : State) (p : Power) (ph : Option Phase) : (s.tellPower p ph).pcu = s.pcu := rfl

@[simp] theorem State.tellPower_cph (s : State) (p : Power) (ph : Option Phase) : (s.tellPower p ph).cph = s.cph := rfl

@[simp] theorem State.tellPower_flight (s : State) (p : Power) (ph : Option Phase) : (s.tellPower p ph).flight = s.flight ++ powerHolders.map fun b => .powerStateReport b p ph := rfl

@[simp] theorem State.tellPower_pending (s : State) (p : Power) (ph : Option Phase) : (s.tellPower p ph).pending = s.pending := rfl

@[simp] theorem State.setPower_settings (s : State) (p : Power) (ph : Option Phase) (c : PowerCause) : (s.setPower p ph c).settings = s.settings := rfl

@[simp] theorem State.setPower_tbc (s : State) (p : Power) (ph : Option Phase) (c : PowerCause) : (s.setPower p ph c).tbc = s.tbc := rfl

@[simp] theorem State.setPower_flc (s : State) (p : Power) (ph : Option Phase) (c : PowerCause) : (s.setPower p ph c).flc = s.flc := rfl

@[simp] theorem State.setPower_mix (s : State) (p : Power) (ph : Option Phase) (c : PowerCause) : (s.setPower p ph c).mix = s.mix := rfl

@[simp] theorem State.setPower_vdt (s : State) (p : Power) (ph : Option Phase) (c : PowerCause) : (s.setPower p ph c).vdt = s.vdt := rfl

@[simp] theorem State.setPower_scr (s : State) (p : Power) (ph : Option Phase) (c : PowerCause) : (s.setPower p ph c).scr = s.scr := rfl

@[simp] theorem State.setPower_bks (s : State) (p : Power) (ph : Option Phase) (c : PowerCause) : (s.setPower p ph c).bks = s.bks := rfl

@[simp] theorem State.setPower_msc (s : State) (p : Power) (ph : Option Phase) (c : PowerCause) : (s.setPower p ph c).msc = s.msc := rfl

@[simp] theorem State.setPower_rln (s : State) (p : Power) (ph : Option Phase) (c : PowerCause) : (s.setPower p ph c).rln = s.rln := rfl

@[simp] theorem State.setPower_pcu (s : State) (p : Power) (ph : Option Phase) (c : PowerCause) : (s.setPower p ph c).pcu = { s.pcu with power := some p, phase := ph, keptPower := some p } := rfl

@[simp] theorem State.setPower_cph (s : State) (p : Power) (ph : Option Phase) (c : PowerCause) : (s.setPower p ph c).cph = s.cph := rfl

@[simp] theorem State.setPower_flight (s : State) (p : Power) (ph : Option Phase) (c : PowerCause) : (s.setPower p ph c).flight = (s.flight ++ powerHolders.map fun b => .powerStateReport b p ph) ++ [.notice .power (powerPayload s.pcu.power (some p) c)] := rfl

@[simp] theorem State.setPower_pending (s : State) (p : Power) (ph : Option Phase) (c : PowerCause) : (s.setPower p ph c).pending = s.pending := rfl

@[simp] theorem State.replan_settings (s : State) : (s.replan).settings = s.settings := rfl

@[simp] theorem State.replan_tbc (s : State) : (s.replan).tbc = s.tbc := rfl

@[simp] theorem State.replan_flc (s : State) : (s.replan).flc = s.flc := rfl

@[simp] theorem State.replan_mix (s : State) : (s.replan).mix = s.mix.planned s.settings := rfl

@[simp] theorem State.replan_vdt (s : State) : (s.replan).vdt = s.vdt := rfl

@[simp] theorem State.replan_scr (s : State) : (s.replan).scr = s.scr := rfl

@[simp] theorem State.replan_bks (s : State) : (s.replan).bks = s.bks := rfl

@[simp] theorem State.replan_msc (s : State) : (s.replan).msc = s.msc := rfl

@[simp] theorem State.replan_rln (s : State) : (s.replan).rln = s.rln := rfl

@[simp] theorem State.replan_pcu (s : State) : (s.replan).pcu = s.pcu := rfl

@[simp] theorem State.replan_cph (s : State) : (s.replan).cph = s.cph := rfl

@[simp] theorem State.replan_flight (s : State) : (s.replan).flight = s.flight := rfl

@[simp] theorem State.replan_pending (s : State) : (s.replan).pending = s.pending := rfl

@[simp] theorem State.placeShares_settings (s : State) : (s.placeShares).settings = s.settings := rfl

@[simp] theorem State.placeShares_tbc (s : State) : (s.placeShares).tbc = s.tbc := rfl

@[simp] theorem State.placeShares_flc (s : State) : (s.placeShares).flc = s.flc := rfl

@[simp] theorem State.placeShares_mix (s : State) : (s.placeShares).mix = s.mix := rfl

@[simp] theorem State.placeShares_vdt (s : State) : (s.placeShares).vdt = s.vdt := rfl

@[simp] theorem State.placeShares_scr (s : State) : (s.placeShares).scr = s.scr.place s.settings := rfl

@[simp] theorem State.placeShares_bks (s : State) : (s.placeShares).bks = s.bks := rfl

@[simp] theorem State.placeShares_msc (s : State) : (s.placeShares).msc = s.msc := rfl

@[simp] theorem State.placeShares_rln (s : State) : (s.placeShares).rln = s.rln := rfl

@[simp] theorem State.placeShares_pcu (s : State) : (s.placeShares).pcu = s.pcu := rfl

@[simp] theorem State.placeShares_cph (s : State) : (s.placeShares).cph = s.cph := rfl

@[simp] theorem State.placeShares_flight (s : State) : (s.placeShares).flight = s.flight := rfl

@[simp] theorem State.placeShares_pending (s : State) : (s.placeShares).pending = s.pending := rfl

@[simp] theorem State.takeAgenda_settings (s : State) (a : Agenda) : (s.takeAgenda a).settings = s.settings := rfl

@[simp] theorem State.takeAgenda_tbc (s : State) (a : Agenda) : (s.takeAgenda a).tbc = s.tbc := rfl

@[simp] theorem State.takeAgenda_flc (s : State) (a : Agenda) : (s.takeAgenda a).flc = s.flc := rfl

@[simp] theorem State.takeAgenda_mix (s : State) (a : Agenda) : (s.takeAgenda a).mix = s.mix := rfl

@[simp] theorem State.takeAgenda_vdt (s : State) (a : Agenda) : (s.takeAgenda a).vdt = s.vdt := rfl

@[simp] theorem State.takeAgenda_scr (s : State) (a : Agenda) : (s.takeAgenda a).scr = { s.scr with agenda := a, organiserName := s.organiserOf a, page := pageOf a (s.organiserOf a) } := rfl

@[simp] theorem State.takeAgenda_bks (s : State) (a : Agenda) : (s.takeAgenda a).bks = s.bks := rfl

@[simp] theorem State.takeAgenda_msc (s : State) (a : Agenda) : (s.takeAgenda a).msc = s.msc := rfl

@[simp] theorem State.takeAgenda_rln (s : State) (a : Agenda) : (s.takeAgenda a).rln = s.rln := rfl

@[simp] theorem State.takeAgenda_pcu (s : State) (a : Agenda) : (s.takeAgenda a).pcu = s.pcu := rfl

@[simp] theorem State.takeAgenda_cph (s : State) (a : Agenda) : (s.takeAgenda a).cph = s.cph := rfl

@[simp] theorem State.takeAgenda_flight (s : State) (a : Agenda) : (s.takeAgenda a).flight = s.flight := rfl

@[simp] theorem State.takeAgenda_pending (s : State) (a : Agenda) : (s.takeAgenda a).pending = s.pending := rfl

@[simp] theorem State.samplePeriod_settings (s : State) (m : List (Seat × Sample)) (r : Option Sample) : (s.samplePeriod m r).settings = s.settings := rfl

@[simp] theorem State.samplePeriod_tbc (s : State) (m : List (Seat × Sample)) (r : Option Sample) : (s.samplePeriod m r).tbc = s.tbc.withFeeds s.carriesAudio fun x => ((s.mixPeriod m r).seats.get x).feed := rfl

@[simp] theorem State.samplePeriod_flc (s : State) (m : List (Seat × Sample)) (r : Option Sample) : (s.samplePeriod m r).flc = s.flc := rfl

@[simp] theorem State.samplePeriod_mix (s : State) (m : List (Seat × Sample)) (r : Option Sample) : (s.samplePeriod m r).mix = s.mixPeriod m r := rfl

@[simp] theorem State.samplePeriod_vdt (s : State) (m : List (Seat × Sample)) (r : Option Sample) : (s.samplePeriod m r).vdt = s.vdt.sampled (s.carriedMics m) := rfl

@[simp] theorem State.samplePeriod_scr (s : State) (m : List (Seat × Sample)) (r : Option Sample) : (s.samplePeriod m r).scr = s.scr := rfl

@[simp] theorem State.samplePeriod_bks (s : State) (m : List (Seat × Sample)) (r : Option Sample) : (s.samplePeriod m r).bks = s.bks := rfl

@[simp] theorem State.samplePeriod_msc (s : State) (m : List (Seat × Sample)) (r : Option Sample) : (s.samplePeriod m r).msc = s.msc := rfl

@[simp] theorem State.samplePeriod_rln (s : State) (m : List (Seat × Sample)) (r : Option Sample) : (s.samplePeriod m r).rln = s.rln := rfl

@[simp] theorem State.samplePeriod_pcu (s : State) (m : List (Seat × Sample)) (r : Option Sample) : (s.samplePeriod m r).pcu = s.pcu := rfl

@[simp] theorem State.samplePeriod_cph (s : State) (m : List (Seat × Sample)) (r : Option Sample) : (s.samplePeriod m r).cph = s.cph := rfl

@[simp] theorem State.samplePeriod_flight (s : State) (m : List (Seat × Sample)) (r : Option Sample) : (s.samplePeriod m r).flight = s.flight := rfl

@[simp] theorem State.samplePeriod_pending (s : State) (m : List (Seat × Sample)) (r : Option Sample) : (s.samplePeriod m r).pending = s.pending := rfl

@[simp] theorem State.audioStill_settings (s : State) : (s.audioStill).settings = s.settings := rfl

@[simp] theorem State.audioStill_tbc (s : State) : (s.audioStill).tbc = s.tbc.withFeeds false fun _ => none := rfl

@[simp] theorem State.audioStill_flc (s : State) : (s.audioStill).flc = s.flc := rfl

@[simp] theorem State.audioStill_mix (s : State) : (s.audioStill).mix = s.mix.silent := rfl

@[simp] theorem State.audioStill_vdt (s : State) : (s.audioStill).vdt = s.vdt := rfl

@[simp] theorem State.audioStill_scr (s : State) : (s.audioStill).scr = s.scr := rfl

@[simp] theorem State.audioStill_bks (s : State) : (s.audioStill).bks = s.bks := rfl

@[simp] theorem State.audioStill_msc (s : State) : (s.audioStill).msc = s.msc := rfl

@[simp] theorem State.audioStill_rln (s : State) : (s.audioStill).rln = s.rln := rfl

@[simp] theorem State.audioStill_pcu (s : State) : (s.audioStill).pcu = s.pcu := rfl

@[simp] theorem State.audioStill_cph (s : State) : (s.audioStill).cph = s.cph := rfl

@[simp] theorem State.audioStill_flight (s : State) : (s.audioStill).flight = s.flight := rfl

@[simp] theorem State.audioStill_pending (s : State) : (s.audioStill).pending = s.pending := rfl

@[simp] theorem Tbc.withFeeds_feed (c : Bool) (g : Seat → Option Int) (t : Tbc) (x : Seat) :
    ((t.withFeeds c g).seats.get x).feed = if c && (t.seats.get x).presence = .online then g x else none := by
  simp [Tbc.withFeeds]

@[simp] theorem Tbc.withFeeds_presence (c : Bool) (g : Seat → Option Int) (t : Tbc) (x : Seat) :
    ((t.withFeeds c g).seats.get x).presence = (t.seats.get x).presence := by
  simp [Tbc.withFeeds]

@[simp] theorem State.emit_nil (s : State) : s.emit [] = s := by simp [State.emit]

theorem State.emit_emit (s : State) (a b : List Instr) : (s.emit a).emit b = s.emit (a ++ b) := by simp [State.emit]

@[simp] theorem mem_allSeats (x : Seat) : x ∈ allSeats := by simp [allSeats]

theorem mem_ite_nil {α : Type} {c : Prop} [Decidable c] {l : List α} {i : α} : i ∈ (if c then l else []) ↔ c ∧ i ∈ l := by
  split <;> simp [*]

end Sys2Proof.Machine
end

