-- ==== Sys2Proof/Laws/Floor.lean ====
section
/-! SUPPORT. What promotion, the ring derivation and a whole floor change can do, said once. -/

namespace Sys2Proof.Machine

open Sys2Proof

/-- The floor after some openings: the speakers stay in place, the queue only loses entries, and nothing else moves but self-mutes,
flashes and rings. -/
structure FloorGrown (f g : Flc) : Prop where
  speakers : f.speakers <+: g.speakers
  queue : g.queue.Sublist f.queue
  opened : ∀ e ∈ g.speakers, e ∈ f.speakers ∨ ∃ q ∈ f.queue, q.seat = e.seat ∧ e.origin = promotedOrigin q.origin
  overrides : g.overrides = f.overrides
  mode : g.mode = f.mode
  limit : g.limit = f.limit
  seating : g.seating = f.seating
  plan : g.plan = f.plan
  muteSwitch : g.muteSwitch = f.muteSwitch
  power : g.power = f.power
  fields : ∀ x : Seat, (g.seats.get x).enabled = (f.seats.get x).enabled ∧ (g.seats.get x).role = (f.seats.get x).role
    ∧ (g.seats.get x).participant = (f.seats.get x).participant ∧ (g.seats.get x).online = (f.seats.get x).online
  marks : ∀ x : Seat, f.waits x = false → (g.seats.get x).selfMuted = (f.seats.get x).selfMuted
    ∧ (g.seats.get x).flash = (f.seats.get x).flash

theorem FloorGrown.refl (f : Flc) : FloorGrown f f :=
  ⟨List.prefix_refl _, List.Sublist.refl _, fun _ => .inl, rfl, rfl, rfl, rfl, rfl, rfl, rfl, fun _ => ⟨rfl, rfl, rfl, rfl⟩, fun _ _ => ⟨rfl, rfl⟩⟩

/-- A seat that does not wait does not wait in a part of the queue. -/
theorem waits_of_sublist {f g : Flc} (h : g.queue.Sublist f.queue) {x : Seat} (w : f.waits x = false) : g.waits x = false := by
  simp only [Flc.waits, List.any_eq_false] at *
  exact fun q m => w q (h.subset m)

theorem FloorGrown.trans {f g h : Flc} (a : FloorGrown f g) (b : FloorGrown g h) : FloorGrown f h where
  speakers := a.speakers.trans b.speakers
  queue := b.queue.trans a.queue
  opened e m := by
    rcases b.opened e m with h | ⟨q, hq, k⟩
    · exact a.opened e h
    · exact .inr ⟨q, a.queue.subset hq, k⟩
  overrides := b.overrides.trans a.overrides
  mode := b.mode.trans a.mode
  limit := b.limit.trans a.limit
  seating := b.seating.trans a.seating
  plan := b.plan.trans a.plan
  muteSwitch := b.muteSwitch.trans a.muteSwitch
  power := b.power.trans a.power
  fields x :=
    have p := a.fields x
    have q := b.fields x
    ⟨q.1.trans p.1, q.2.1.trans p.2.1, q.2.2.1.trans p.2.2.1, q.2.2.2.trans p.2.2.2⟩
  marks x w :=
    have p := a.marks x w
    have q := b.marks x (waits_of_sublist a.queue w)
    ⟨q.1.trans p.1, q.2.trans p.2⟩

theorem openSeat_grown (e : FloorEnv) (q : QueueEntry) (f : Flc) (m : q ∈ f.queue) :
    FloorGrown f (f.openSeat e q.seat (promotedOrigin q.origin)) where
  speakers := ⟨_, rfl⟩
  opened d h := by
    rcases List.mem_append.mp h with h | h
    · exact .inl h
    · rw [List.mem_singleton.mp h]
      exact .inr ⟨q, m, rfl, rfl⟩
  queue := List.filter_sublist
  overrides := rfl
  mode := rfl
  limit := rfl
  seating := rfl
  plan := rfl
  muteSwitch := rfl
  power := rfl
  fields y := by
    simp only [Flc.openSeat, Tab.get_upd]
    split <;> simp_all
  marks y w := by
    have n : y ≠ q.seat := fun e => by
      simp only [Flc.waits, List.any_eq_false, decide_eq_true_eq] at w
      exact w q m e.symm
    simp only [Flc.openSeat, Tab.get_upd, if_neg n, and_self]

theorem promoteHeads_grown (e : FloorEnv) (hold : Bool) (n : Nat) (f : Flc) : FloorGrown f (f.promoteHeads e hold n) := by
  induction n generalizing f with
  | zero => exact .refl f
  | succ n ih =>
    unfold Flc.promoteHeads
    split
    · exact .refl f
    · rename_i q rest hq
      split
      · exact (openSeat_grown e q f (by simp [hq])).trans (ih _)
      · exact .refl f

theorem promote_grown (e : FloorEnv) (st : Settings) (f : Flc) : FloorGrown f (f.promote e st) := by
  unfold Flc.promote
  split
  · exact promoteHeads_grown ..
  · exact .refl f

theorem promote_of_not_promotes (e : FloorEnv) (st : Settings) (f : Flc) (h : promotes f.mode st.overflow = false) :
    f.promote e st = f := by
  simp [Flc.promote, h]

theorem HeadsOpened.refl (policy : PriorityPolicy) (f : Flc) : HeadsOpened policy f f :=
  ⟨0, Nat.zero_le _, rfl, by simp, fun h => absurd h (Nat.lt_irrefl 0), fun _ _ h => by simp at h⟩

@[simp] theorem openSeat_role (e : FloorEnv) (x y : Seat) (o : Origin) (f : Flc) : (f.openSeat e x o).role y = f.role y := by
  simp only [Flc.role, Flc.openSeat, Tab.get_upd]
  split <;> simp_all

/-- Promotion opens heads of a queue that has no seat twice, and drops no other entry. -/
theorem promoteHeads_heads (e : FloorEnv) (policy : PriorityPolicy) (n : Nat) (f : Flc) (once : (f.queue.map (·.seat)).Nodup) :
    HeadsOpened policy f (f.promoteHeads e (f.holds policy) n) := by
  induction n generalizing f with
  | zero => exact .refl policy f
  | succ n ih =>
    unfold Flc.promoteHeads
    split
    · exact .refl policy f
    · rename_i q rest hq
      split
      case isFalse => exact .refl policy f
      case isTrue h =>
        rw [hq, List.map_cons, List.nodup_cons] at once
        have tail : (f.openSeat e q.seat (promotedOrigin q.origin)).queue = rest := by
          simp only [Flc.openSeat, hq, List.filter_cons, ne_eq, not_true_eq_false, decide_false, Bool.false_eq_true, ↓reduceIte]
          exact List.filter_eq_self.mpr fun d m => by simpa using fun k : d.seat = q.seat => once.1 (k ▸ List.mem_map_of_mem m)
        have held : (f.openSeat e q.seat (promotedOrigin q.origin)).holds policy = f.holds policy := rfl
        obtain ⟨m, hm, dq, sp, lim, pr⟩ := ih (f.openSeat e q.seat (promotedOrigin q.origin)) (by rw [tail]; exact once.2)
        rw [tail] at hm dq sp pr
        simp only [held, openSeat_role] at dq sp pr ⊢
        simp only [Bool.and_eq_true, Flc.hasRoom, decide_eq_true_eq, Bool.not_eq_true', Bool.and_eq_false_iff] at h
        refine ⟨m + 1, by simp [hq]; exact hm, by simpa [hq] using dq, ?_, fun _ => ?_, fun hold d md => ?_⟩
        · rw [sp, hq]
          simp [Flc.openSeat]
        · by_cases z : m = 0
          · subst z; exact h.1
          · have := lim (Nat.pos_of_ne_zero z)
            simp only [Flc.openSeat, List.length_append, List.length_cons, List.length_nil] at this
            omega
        · rw [hq, List.take_succ_cons] at md
          rcases List.mem_cons.mp md with rfl | md
          · rcases h.2 with h | h
            · exact absurd hold (by simp [h])
            · simpa using h
          · exact pr hold d md

theorem promote_heads (e : FloorEnv) (st : Settings) (f : Flc) (once : (f.queue.map (·.seat)).Nodup) :
    HeadsOpened st.priorityPolicy f (f.promote e st) := by
  unfold Flc.promote
  split
  · exact promoteHeads_heads e _ _ f once
  · exact .refl _ f

/-- The rings are read by nothing that derives them. -/
theorem deriveRing_withRings (lead : Nat) (f : Flc) (x : Seat) : (f.withRings lead).deriveRing lead x = f.deriveRing lead x := by
  simp [Flc.deriveRing, Flc.withRings, Flc.waits]

@[simp] theorem withRings_ring (lead : Nat) (f : Flc) (x : Seat) :
    ((f.withRings lead).seats.get x).ring = f.deriveRing lead x := by
  simp [Flc.withRings]

/-- A floor change leaves everything but the floor and the reports as the event's own handling made it. -/
theorem floorChange_eq (cause : FloorCause) (s0 s1 : State) :
    State.floorChange cause s0 s1 =
      { s1 with
        flc := { State.settledFlc s0 s1 with emptyTold := (State.settledFlc s0 s1).isEmpty }
        flight := s1.flight ++ floorResults cause s0 { s1 with flc := State.settledFlc s0 s1 } } := rfl

/-- The floor of the event's own handling, and what promotion and the rings make of it. -/
theorem settledFlc_settled (s0 s1 : State) : FloorSettled s1.settings s1.flc (State.settledFlc s0 s1) := by
  have grown : FloorGrown s1.flc (if promotionDue s0 s1 then s1.flc.promote s1.floorEnv s1.settings else s1.flc) := by
    split
    · exact promote_grown ..
    · exact .refl _
  have still : promotes s1.flc.mode s1.settings.overflow = false →
      (if promotionDue s0 s1 then s1.flc.promote s1.floorEnv s1.settings else s1.flc) = s1.flc := by
    intro h
    split
    · exact promote_of_not_promotes _ _ _ h
    · rfl
  have heads : (s1.flc.queue.map (·.seat)).Nodup → HeadsOpened s1.settings.priorityPolicy s1.flc
      (if promotionDue s0 s1 then s1.flc.promote s1.floorEnv s1.settings else s1.flc) := by
    intro once
    split
    · exact promote_heads _ _ _ once
    · exact .refl _ _
  unfold State.settledFlc
  generalize (if promotionDue s0 s1 then s1.flc.promote s1.floorEnv s1.settings else s1.flc) = g at *
  refine ⟨grown.speakers, grown.queue, grown.opened, heads, ?_, grown.overrides, grown.mode, grown.limit, grown.seating, grown.plan,
    grown.muteSwitch, grown.power, ?_, ?_, ?_⟩
  · intro h
    simp [Flc.withRings, still h]
  · intro x
    simpa [Flc.withRings] using grown.fields x
  · intro x w
    simpa [Flc.withRings] using grown.marks x w
  · intro x
    rw [withRings_ring, deriveRing_withRings]

theorem FloorSettled.of_told {st : Settings} {f g : Flc} (h : FloorSettled st f g) (b : Bool) :
    FloorSettled st f { g with emptyTold := b } :=
  ⟨h.speakers, h.queue, h.opened, h.heads, h.unpromoted, h.overrides, h.mode, h.limit, h.seating, h.plan, h.muteSwitch, h.power, h.fields, h.marks, h.rings⟩

/-- What a floor change can do (R37): the floor settles, reports are sent, and nothing else changes. -/
theorem floorChange_settled (cause : FloorCause) (s0 s1 : State) :
    FloorSettled s1.settings s1.flc (State.floorChange cause s0 s1).flc :=
  (settledFlc_settled s0 s1).of_told _

@[simp] theorem floorChange_settings (cause : FloorCause) (s0 s1 : State) :
    (State.floorChange cause s0 s1).settings = s1.settings := rfl

@[simp] theorem floorChange_tbc (cause : FloorCause) (s0 s1 : State) : (State.floorChange cause s0 s1).tbc = s1.tbc := rfl

@[simp] theorem floorChange_mix (cause : FloorCause) (s0 s1 : State) : (State.floorChange cause s0 s1).mix = s1.mix := rfl

@[simp] theorem floorChange_vdt (cause : FloorCause) (s0 s1 : State) : (State.floorChange cause s0 s1).vdt = s1.vdt := rfl

@[simp] theorem floorChange_scr (cause : FloorCause) (s0 s1 : State) : (State.floorChange cause s0 s1).scr = s1.scr := rfl

@[simp] theorem floorChange_bks (cause : FloorCause) (s0 s1 : State) : (State.floorChange cause s0 s1).bks = s1.bks := rfl

@[simp] theorem floorChange_msc (cause : FloorCause) (s0 s1 : State) : (State.floorChange cause s0 s1).msc = s1.msc := rfl

@[simp] theorem floorChange_rln (cause : FloorCause) (s0 s1 : State) : (State.floorChange cause s0 s1).rln = s1.rln := rfl

@[simp] theorem floorChange_pcu (cause : FloorCause) (s0 s1 : State) : (State.floorChange cause s0 s1).pcu = s1.pcu := rfl

@[simp] theorem floorChange_cph (cause : FloorCause) (s0 s1 : State) : (State.floorChange cause s0 s1).cph = s1.cph := rfl

@[simp] theorem floorChange_pending (cause : FloorCause) (s0 s1 : State) :
    (State.floorChange cause s0 s1).pending = s1.pending := rfl

theorem floorChange_flight (cause : FloorCause) (s0 s1 : State) :
    ∃ out, (State.floorChange cause s0 s1).flight = s1.flight ++ out := ⟨_, rfl⟩

/-! ## The results of a floor change (R37) -/

/-- Some seat's fields differ exactly when a seat with different ones is there. -/
theorem seatsDiffer_iff {β : Type} [DecidableEq β] (p : FlcSeat → β) (a b : Flc) :
    seatsDiffer p a b = true ↔ ∃ x, p (a.seats.get x) ≠ p (b.seats.get x) := by
  simp [seatsDiffer]

theorem stages_eq (lead : Nat) (f : Flc) : f.stages lead = f.speakers.map (stageOf lead) := by
  refine List.map_congr_left fun e _ => ?_
  rcases e with ⟨_, _, _, _, _ | _, _, _⟩ <;> simp [stageOf, SpeakerEntry.warned]

/-- A view is the one the Mix Engine is told of this floor. -/
theorem mixView_iff (f : Flc) (policy : PriorityPolicy) (v : MixFloor) : v = f.mixView policy ↔
    v.speakers = f.speakers.map (fun e => (e.seat, e.priority)) ∧ (v.overriding = true ↔ f.overrides ≠ []) ∧ v.policy = policy := by
  rcases v with ⟨a, b, c⟩
  cases h : f.overrides <;> cases b <;> simp [Flc.mixView, Flc.mixSpeakers, h]

/-- A view is the one the Screen Router is told of this floor. -/
theorem scrView_iff (f : Flc) (lead : Nat) (v : FloorView) : v = f.scrView lead ↔
    v.speakers = f.speakers.map (fun e => ⟨e.seat, e.remaining, e.overtime⟩) ∧ v.queue = f.queue.map (·.seat) ∧ v.lead = lead ∧
      ∀ x, v.roles.get x = (f.seats.get x).role ∧ v.participants.get x = (f.seats.get x).participant ∧
        v.enabled.get x = (f.seats.get x).enabled := by
  constructor
  · rintro rfl
    simp [Flc.scrView]
  · rcases v with ⟨a, b, c, d, e, g⟩
    rintro ⟨rfl, rfl, h, k⟩
    simp only [Flc.scrView, FloorView.mk.injEq, true_and]
    refine ⟨?_, ?_, ?_, h⟩ <;> refine Tab.ext_get _ _ fun x => ?_ <;> simp [k x]

theorem mem_mixResult (s t : State) (i : Instr) :
    i ∈ mixResult s t ↔ ∃ v, i = .floorChangeAtMix v ∧ FloorReports .report true s t (.floorChangeAtMix v) := by
  simp only [mixResult, mem_ite_nil, List.mem_singleton]
  simp only [FloorReports, Flc.mixSpeakers, ← mixView_iff]
  constructor
  · rintro ⟨h, rfl⟩
    exact ⟨_, rfl, rfl, h⟩
  · rintro ⟨v, rfl, rfl, h⟩
    exact ⟨h, rfl⟩

theorem mem_scrResult (s t : State) (i : Instr) :
    i ∈ scrResult s t ↔ ∃ v, i = .floorChangeAtScr v ∧ FloorReports .report true s t (.floorChangeAtScr v) := by
  have fields : seatsDiffer (fun t => (t.participant, t.role, t.enabled)) s.flc t.flc = true ↔
      ∃ x, (s.flc.seats.get x).participant ≠ (t.flc.seats.get x).participant ∨ (s.flc.seats.get x).role ≠ (t.flc.seats.get x).role ∨
        (s.flc.seats.get x).enabled ≠ (t.flc.seats.get x).enabled := by
    simp only [seatsDiffer_iff, ne_eq, Prod.mk.injEq, not_and_or]
  simp only [scrResult, mem_ite_nil, List.mem_singleton, FloorReports, stages_eq, fields, ← scrView_iff]
  constructor
  · rintro ⟨h, rfl⟩
    exact ⟨_, rfl, rfl, h.imp_right (Or.imp_right Or.symm)⟩
  · rintro ⟨v, rfl, rfl, h⟩
    exact ⟨h.imp_right (Or.imp_right Or.symm), rfl⟩

theorem mem_lampResult (s t : State) (i : Instr) :
    i ∈ lampResult s t ↔ ∃ b, i = .liveLampReport b ∧ FloorReports .report true s t (.liveLampReport b) := by
  simp only [lampResult, mem_ite_nil, List.mem_singleton, FloorReports]
  cases s.flc.speakers <;> cases t.flc.speakers <;> simp

theorem mem_emptyResult (t : State) (i : Instr) :
    i ∈ emptyResult t ↔ ∃ b, i = .floorEmptyReport b ∧ FloorReports .report t.flc.emptyTold t t (.floorEmptyReport b) := by
  simp only [emptyResult, mem_ite_nil, List.mem_singleton]
  simp only [FloorReports, Flc.isEmpty]
  cases t.flc.speakers <;> cases t.flc.queue <;> cases t.flc.emptyTold <;> simp

theorem mem_seatResults (s t : State) (i : Instr) :
    i ∈ seatResults s t ↔
      (∃ x b, i = .eligibilityReport x b ∧ FloorReports .report true s t (.eligibilityReport x b)) ∨
      (∃ x b, i = .enabledReportAtTbc x b ∧ FloorReports .report true s t (.enabledReportAtTbc x b)) ∨
      (∃ x b, i = .enabledReportAtScr x b ∧ FloorReports .report true s t (.enabledReportAtScr x b)) ∨
      (∃ x, i = .ringChange x ∧ FloorReports .report true s t (.ringChange x)) := by
  have eligible : ∀ (x : Seat) (b : Bool), b = (t.flc.seats.get x).eligible ↔
      (b = true ↔ (t.flc.seats.get x).enabled = true ∧ (t.flc.seats.get x).selfMuted = false) := by
    intro x b
    cases b <;> cases h : (t.flc.seats.get x).enabled <;> cases k : (t.flc.seats.get x).selfMuted <;> simp [FlcSeat.eligible, h, k]
  simp only [seatResults, List.mem_flatMap, mem_allSeats, true_and, List.mem_append, mem_ite_nil, List.mem_cons, List.not_mem_nil, or_false,
    FloorReports, ← eligible]
  constructor
  · rintro ⟨x, ((⟨h, rfl⟩ | ⟨h, rfl | rfl⟩) | ⟨h, rfl⟩)⟩ <;> simp [h]
  · rintro (⟨x, b, rfl, rfl, h⟩ | ⟨x, b, rfl, rfl, h⟩ | ⟨x, b, rfl, rfl, h⟩ | ⟨x, rfl, h⟩) <;> exact ⟨x, by simp [h]⟩

theorem mem_noticeResult (cause : FloorCause) (s t : State) (i : Instr) :
    i ∈ noticeResult cause s t ↔ ∃ k p, i = .notice k p ∧ FloorReports cause true s t (.notice k p) := by
  have fields : seatsDiffer (fun t => (t.enabled, t.role, t.participant, t.selfMuted)) s.flc t.flc = true ↔
      ∃ x, (s.flc.seats.get x).enabled ≠ (t.flc.seats.get x).enabled ∨ (s.flc.seats.get x).role ≠ (t.flc.seats.get x).role ∨
        (s.flc.seats.get x).participant ≠ (t.flc.seats.get x).participant ∨
        (s.flc.seats.get x).selfMuted ≠ (t.flc.seats.get x).selfMuted := by
    simp only [seatsDiffer_iff, ne_eq, Prod.mk.injEq, not_and_or]
  simp only [noticeResult, mem_ite_nil, List.mem_singleton, FloorReports, fields, Settings.floorPart, ne_eq, Prod.mk.injEq, not_and_or]
  constructor
  · rintro ⟨h, rfl⟩
    exact ⟨_, _, rfl, ⟨rfl, rfl⟩, h⟩
  · rintro ⟨k, p, rfl, ⟨rfl, rfl⟩, h⟩
    exact ⟨h, rfl⟩

/-- A floor change sends the results of R37's table and no others. -/
theorem mem_floorResults (cause : FloorCause) (s t : State) (i : Instr) :
    i ∈ floorResults cause s t ↔ FloorReports cause t.flc.emptyTold s t i := by
  simp only [floorResults, List.mem_append, mem_mixResult, mem_scrResult, mem_lampResult, mem_emptyResult, mem_seatResults, mem_noticeResult]
  cases i <;> simp [FloorReports, -Bool.exists_bool]

@[simp] theorem promoteHeads_emptyTold (e : FloorEnv) (hold : Bool) (n : Nat) (f : Flc) :
    (f.promoteHeads e hold n).emptyTold = f.emptyTold := by
  induction n generalizing f with
  | zero => rfl
  | succ n ih =>
    unfold Flc.promoteHeads
    split
    · rfl
    · split
      · exact ih _
      · rfl

@[simp] theorem settledFlc_emptyTold (s0 s1 : State) : (State.settledFlc s0 s1).emptyTold = s1.flc.emptyTold := by
  unfold State.settledFlc Flc.promote
  split
  · split <;> simp [Flc.withRings]
  · rfl

/-- What a floor change sends behind what was in flight (R37). -/
theorem floorChange_sends (cause : FloorCause) (s0 s1 : State) :
    ∃ out, (State.floorChange cause s0 s1).flight = s1.flight ++ out ∧
      ∀ i, i ∈ out ↔ FloorReports cause s1.flc.emptyTold s0 (State.floorChange cause s0 s1) i := by
  refine ⟨_, by rw [floorChange_eq], fun i => ?_⟩
  rw [mem_floorResults, settledFlc_emptyTold]
  cases i <;> rfl

/-- An event whose handling is a floor change, with more reports behind it, told its results. -/
theorem floorChange_told (cause : FloorCause) (s0 s1 t : State) (more : List Instr)
    (b : s1.flight = s0.flight ∨ ∃ c, s1.flight = s0.flight.erase c) (k : s1.flc.emptyTold = s0.flc.emptyTold)
    (h : t = (State.floorChange cause s0 s1).emit more) (f : ∀ i ∈ more, FollowsFloor i) : FloorTold cause s0 t := by
  obtain ⟨out, he, hm⟩ := floorChange_sends cause s0 s1
  rw [k] at hm
  have same : ∀ i, FloorReports cause s0.flc.emptyTold s0 t i ↔ FloorReports cause s0.flc.emptyTold s0 (State.floorChange cause s0 s1) i := by
    subst h
    intro i
    cases i <;> rfl
  refine ⟨s1.flight, out ++ more, b, ?_, fun i hi => List.mem_append_left _ ((hm i).mpr ((same i).mp hi)), fun i hi => ?_⟩
  · rw [h, State.emit_flight, he, List.append_assoc]
  · exact (List.mem_append.mp hi).imp (fun m => (same i).mpr ((hm i).mp m)) (f i)

end Sys2Proof.Machine
end

