-- ==== Sys2Proof/Laws/Ops.lean ====
section
/-! SUPPORT. What the shared operations of commands and of the power unit can do, said once. -/

namespace Sys2Proof.Machine

open Sys2Proof

/-- A command that needs FULL runs in FULL and waits otherwise (R172). -/
theorem whenFull_full {s : State} (r : CmdRef) (effect : State → State) (h : s.pcu.power = some .full) :
    s.whenFull r effect = effect s := by simp [State.whenFull, h]

theorem whenFull_waits {s : State} (r : CmdRef) (effect : State → State) (h : s.pcu.power ≠ some .full) :
    s.whenFull r effect = s.waitForFull r := by simp [State.whenFull, h]

/-- Waiting touches the hub alone, and sends a wake request in QUIET and SLEEP (R172). -/
theorem waitForFull_eq (s : State) (r : CmdRef) :
    s.waitForFull r = { s with
      cph := { s.cph with
        ports := s.cph.ports.upd r.port { s.cph.ports.get r.port with inHand := markWaiting r.tag (s.cph.ports.get r.port).inHand } }
      flight := s.flight ++ if s.pcu.power = some .quiet ∨ s.pcu.power = some .sleep then [.wakeRequest .command] else [] } := by
  unfold State.waitForFull State.wakeForCommand
  dsimp only
  split
  · rfl
  · simp

/-- A numeric setting command refuses what is no number, and else sets the clamped value and says whether it was clamped (R77). -/
theorem setNumber_none (s : State) (r : CmdRef) (lo hi : Int) (shown : Int → List Byte) (set : Int → State → State) :
    s.setNumber r lo hi none shown set = s.reply r .badArgument := rfl

theorem setNumber_some (s : State) (r : CmdRef) (lo hi v : Int) (shown : Int → List Byte) (set : Int → State → State) :
    s.setNumber r lo hi (some v) shown set =
      if lo ≤ v ∧ v ≤ hi then (set v s).reply r .ok else (set (clampInt lo hi v) s).reply r .clamped (shown (clampInt lo hi v)) := rfl

/-- A number within the range is what clamping leaves alone. -/
theorem clampInt_of_mem {lo hi v : Int} (h : lo ≤ v) (k : v ≤ hi) : clampInt lo hi v = v := by
  unfold clampInt
  omega

theorem clampInt_mem {lo hi : Int} (v : Int) (h : lo ≤ hi) : lo ≤ clampInt lo hi v ∧ clampInt lo hi v ≤ hi := by
  unfold clampInt
  omega

/-- A wake source acts in QUIET and SLEEP alone (R171). -/
theorem wakeUp_awake {s : State} (cause : PowerCause) (h : s.pcu.power ≠ some .quiet) (k : s.pcu.power ≠ some .sleep) :
    s.wakeUp cause = s := by
  unfold State.wakeUp
  split
  · contradiction
  · contradiction
  · rfl

theorem wakeUp_power {s : State} (cause : PowerCause) (h : s.pcu.power = some .quiet ∨ s.pcu.power = some .sleep) :
    (s.wakeUp cause).pcu.power = some .waking ∧ (s.wakeUp cause).pcu.sleep = none := by
  obtain h | h := h <;> simp [State.wakeUp, h, State.setPower, State.tellPower]

/-- The idle timer never runs outside FULL, in a room in use, or at idle time 0, when it has just been started (R167). -/
theorem idleStarted_isSome (minutes : Nat) (p : Pcu) :
    (idleStarted minutes p).isSome = true ↔ p.power = some .full ∧ p.unused = true ∧ minutes ≠ 0 := by
  unfold idleStarted
  split <;> simp_all

theorem refreshIdle_used {s : State} (was : Bool) (h : s.pcu.unused = false) : (s.refreshIdle was).pcu.idle = none := by
  simp [State.refreshIdle, h]

theorem refreshIdle_kept {s : State} (h : s.pcu.unused = true) : s.refreshIdle true = s := by simp [State.refreshIdle, h]

theorem refreshIdle_started {s : State} (h : s.pcu.unused = true) : s.refreshIdle false = s.restartIdle := by
  simp [State.refreshIdle, h]

end Sys2Proof.Machine
end

