-- ==== Sys2Proof/Laws/Ports.lean ====
section
/-! SUPPORT. What a record appended, a notice offered and a command completed do to a port, said once (R178, R179, R180). -/

namespace Sys2Proof.Machine

open Sys2Proof

/-- The bounds of one port (R179). -/
def PortState.Bounded (t : PortState) : Prop := t.inHand.length ≤ 8 ∧ t.places ≤ 32

theorem portsInBounds_iff (s : State) : PortsInBounds s ↔ ∀ p, (s.port p).Bounded := Iff.rfl

@[simp] theorem append_inHand (t : PortState) (e : EventRecord) : (t.append e).inHand = t.inHand := rfl

@[simp] theorem append_gap (t : PortState) (e : EventRecord) : (t.append e).gap = false := rfl

@[simp] theorem append_places (t : PortState) (e : EventRecord) : (t.append e).places = t.places + 1 := by
  simp [PortState.append, PortState.places]
  omega

/-- What an offer of a notice can do: nothing, a record at the tail with the gap mark, or the gap mark set (R180). -/
theorem offered_cases (k : NoticeKind) (payload : List Byte) (t : PortState) :
    (k ∉ t.subs ∧ t.offered k payload = t) ∨
    (k ∈ t.subs ∧ t.places < 32 ∧ t.offered k payload = t.append (noticeRecord k payload)) ∨
    (k ∈ t.subs ∧ 32 ≤ t.places ∧ t.offered k payload = { t with gap := true }) := by
  unfold PortState.offered
  split
  · rename_i m
    split
    · rename_i h
      exact .inr (.inl ⟨m, h, rfl⟩)
    · rename_i h
      exact .inr (.inr ⟨m, Nat.le_of_not_lt h, rfl⟩)
  · rename_i m
    exact .inl ⟨m, rfl⟩

theorem offered_bounded (k : NoticeKind) (payload : List Byte) {t : PortState} (h : t.Bounded) : (t.offered k payload).Bounded := by
  obtain ⟨-, e⟩ | ⟨-, l, e⟩ | ⟨-, -, e⟩ := offered_cases k payload t
  · rwa [e]
  · rw [e]
    exact ⟨h.1, by rw [append_places]; omega⟩
  · rw [e]
    exact h

/-- What a block's result can do: nothing for a command not in hand, and else its record at the tail and the command gone from hand
(R178, R182). -/
theorem completed_cases (t : PortState) (tag : Nat) (result : Result) (payload : List Byte) :
    ((∀ h ∈ t.inHand, h.tag ≠ tag) ∧ t.completed tag result payload = t) ∨
    ∃ h ∈ t.inHand, h.tag = tag ∧ t.completed tag result payload =
      { t with inHand := t.inHand.filter fun g => g.tag ≠ tag }.append (completionRecord h result payload) := by
  unfold PortState.completed
  split
  · rename_i h e
    exact .inr ⟨h, List.mem_of_find?_eq_some e, by simpa using List.find?_some e, rfl⟩
  · rename_i e
    exact .inl ⟨by simpa using e, rfl⟩

theorem completed_bounded (tag : Nat) (result : Result) (payload : List Byte) {t : PortState} (h : t.Bounded) :
    (t.completed tag result payload).Bounded := by
  obtain ⟨-, e⟩ | ⟨c, m, ct, e⟩ := completed_cases t tag result payload
  · rwa [e]
  · have lt : (t.inHand.filter fun g => g.tag ≠ tag).length < t.inHand.length :=
      List.length_filter_lt_length_iff_exists.2 ⟨c, m, by simpa using ct⟩
    have hp := h.2
    have hh := h.1
    unfold PortState.places at hp
    rw [e]
    refine ⟨?_, ?_⟩
    · rw [append_inHand]
      exact Nat.le_trans (Nat.le_of_lt lt) hh
    · rw [append_places]
      simp only [PortState.places]
      omega

end Sys2Proof.Machine
end

