-- ==== Sys2Proof/Laws/Screen.lean ====
section
/-! SUPPORT. What the placement pass and a whole screen change can do, said once. -/

namespace Sys2Proof.Machine

open Sys2Proof

theorem PlacedFrom.refl (a : ShareEntry) : PlacedFrom a a := ⟨rfl, rfl, rfl, fun _ => rfl⟩

theorem PlacedFrom.trans {a b c : ShareEntry} (h : PlacedFrom a b) (k : PlacedFrom b c) : PlacedFrom a c :=
  ⟨k.1.trans h.1, k.2.1.trans h.2.1, k.2.2.1.trans h.2.2.1, fun w => by
    have e := h.2.2.2 w
    rw [k.2.2.2 (by rw [e]; exact w), e]⟩

theorem placedFrom_refl (l : List ShareEntry) : List.Forall₂ PlacedFrom l l := by
  induction l with
  | nil => exact .nil
  | cons a l ih => exact .cons (.refl a) ih

theorem placedFrom_trans {l m n : List ShareEntry} (h : List.Forall₂ PlacedFrom l m) (k : List.Forall₂ PlacedFrom m n) :
    List.Forall₂ PlacedFrom l n := by
  induction h generalizing n with
  | nil => cases k; exact .nil
  | cons p _ ih => cases k with
    | cons q rest => exact .cons (p.trans q) (ih rest)

theorem mem_allSlots (k : SlotId) : k ∈ allSlots := by cases k <;> decide

/-- One placement leaves everything but the list's states alone. -/
theorem placeOne_shares (st : Settings) (v : Scr) : v.placeOne st = { v with shares := (v.placeOne st).shares } := by
  unfold Scr.placeOne; split <;> rfl

theorem placeOne_placed (st : Settings) (v : Scr) : List.Forall₂ PlacedFrom v.shares (v.placeOne st).shares := by
  unfold Scr.placeOne
  split
  · simp only
    induction v.shares with
    | nil => exact .nil
    | cons d l ih =>
      refine .cons ?_ ih
      dsimp only
      split
      · rename_i h; exact ⟨rfl, rfl, rfl, fun w => absurd h.2 w⟩
      · exact .refl d
  · exact placedFrom_refl _

/-- A slot is held by an entry or it is not. -/
theorem entryIn_isNone (v : Scr) (k : SlotId) : (v.entryIn k).isNone = v.shares.all fun e => e.state.slot ≠ some k := by
  unfold Scr.entryIn
  induction v.shares with
  | nil => rfl
  | cons e l ih =>
    by_cases h : e.state.slot = some k
    · simp [List.find?, h]
    · simp [List.find?, h, ih]

/-- Eligibility as R99 says it. -/
theorem allows_iff (v : Scr) (p : PresenterPolicy) (e : ShareEntry) : v.allows p e = true ↔ MayBeShown p v e := by
  cases p <;> simp [Scr.allows, MayBeShown, Scr.hears]

/-- A free slot as R100 says it. -/
theorem isFree_iff (st : Settings) (v : Scr) (k : SlotId) : v.isFree st k = true ↔ FreeSlot st v k := by
  cases k <;>
    simp only [Scr.isFree, FreeSlot, slotExists, SlotId.isRight, SlotId.screen, entryIn_isNone, Bool.and_eq_true, List.all_eq_true,
      decide_eq_true_eq] <;> simp [and_assoc] <;> exact fun _ _ => decide_eq_true_iff

/-- The end of the placement pass in the model's own terms. -/
theorem placementDone_iff (st : Settings) (v : Scr) : PlacementDone st v ↔
    (∀ k : SlotId, v.isFree st k = false) ∨ ∀ e ∈ v.shares, e.state = .waiting → v.allows st.presenter e = false := by
  simp only [PlacementDone, ← isFree_iff, ← allows_iff, Bool.not_eq_true]

/-- How many slots are free. -/
def Scr.freeCount (st : Settings) (v : Scr) : Nat := allSlots.countP (v.isFree st)

/-- One placement either has nothing left to do and changes nothing, or takes one free slot. -/
theorem placeOne_cases (st : Settings) (v : Scr) :
    (PlacementDone st v ∧ v.placeOne st = v) ∨ (v.placeOne st).freeCount st < v.freeCount st := by
  unfold Scr.placeOne
  split
  case h_2 h =>
    refine .inl ⟨(placementDone_iff st v).mpr ?_, rfl⟩
    cases hk : allSlots.find? (v.isFree st) with
    | none =>
      refine .inl fun k => ?_
      simpa using List.find?_eq_none.mp hk k (mem_allSlots k)
    | some k =>
      cases he : v.shares.find? (fun e => e.state = .waiting && v.allows st.presenter e) with
      | none =>
        refine .inr fun e me w => ?_
        have := List.find?_eq_none.mp he e me
        simpa [w] using this
      | some e => exact absurd he (h k e hk)
  case h_1 k e hk he =>
    refine .inr ?_
    have fk := List.find?_some hk
    have fe := List.find?_some he
    have me := List.mem_of_find?_eq_some he
    simp only [Bool.and_eq_true, decide_eq_true_eq] at fe
    have other : ∀ j : SlotId, j ≠ k → Scr.isFree
        { v with shares := v.shares.map fun d => if d.point = e.point ∧ d.state = .waiting then { d with state := .shown k } else d }
        st j = v.isFree st j := by
      intro j hj
      simp only [Scr.isFree, entryIn_isNone, List.all_map]
      congr 1
      congr 1
      funext d
      simp only [Function.comp]
      split
      · rename_i hd; simp [hd.2, ShareState.slot, Ne.symm hj]
      · rfl
    have self : Scr.isFree
        { v with shares := v.shares.map fun d => if d.point = e.point ∧ d.state = .waiting then { d with state := .shown k } else d }
        st k = false := by
      simp only [Scr.isFree, entryIn_isNone, List.all_map, Bool.and_eq_false_iff]
      refine .inr ?_
      rw [List.all_eq_false]
      exact ⟨e, me, by simp [fe.1, ShareState.slot]⟩
    unfold Scr.freeCount allSlots
    simp only [List.countP_cons, List.countP_nil]
    cases k
    · simp only [other .front1 (by decide), other .rear0 (by decide), other .rear1 (by decide), self, fk]; simp
    · simp only [other .front0 (by decide), other .rear0 (by decide), other .rear1 (by decide), self, fk]; simp
    · simp only [other .front0 (by decide), other .front1 (by decide), other .rear1 (by decide), self, fk]; simp
    · simp only [other .front0 (by decide), other .front1 (by decide), other .rear0 (by decide), self, fk]; simp

theorem freeCount_le (st : Settings) (v : Scr) : v.freeCount st ≤ 4 := List.countP_le_length

theorem placementDone_of_freeCount {st : Settings} {v : Scr} (h : v.freeCount st = 0) : PlacementDone st v := by
  refine (placementDone_iff st v).mpr (.inl fun k => ?_)
  have := List.countP_eq_zero.mp h k (mem_allSlots k)
  simpa using this

/-- The placement pass is complete after four placements (R100). -/
theorem place_done (st : Settings) (v : Scr) : PlacementDone st (v.place st) := by
  have step : ∀ w : Scr, PlacementDone st w → PlacementDone st (w.placeOne st) := by
    intro w h
    rcases placeOne_cases st w with ⟨_, e⟩ | lt
    · rw [e]; exact h
    · rcases (placementDone_iff st w).mp h with h | h
      · have : w.freeCount st = 0 := List.countP_eq_zero.mpr fun k _ => by simp [h k]
        omega
      · have e : w.placeOne st = w := by
          unfold Scr.placeOne
          split
          · rename_i k e hk he
            have fe := List.find?_some he
            simp only [Bool.and_eq_true, decide_eq_true_eq] at fe
            have := h e (List.mem_of_find?_eq_some he) fe.1
            simp [this] at fe
          · rfl
        rw [e]; exact (placementDone_iff st w).mpr (.inr h)
  have one : ∀ (w : Scr) (n : Nat), (PlacementDone st w ∨ w.freeCount st ≤ n + 1) →
      (PlacementDone st (w.placeOne st) ∨ (w.placeOne st).freeCount st ≤ n) := by
    intro w n h
    rcases h with h | h
    · exact .inl (step w h)
    · rcases placeOne_cases st w with ⟨d, e⟩ | lt
      · exact .inl (by rw [e]; exact d)
      · exact .inr (by omega)
  unfold Scr.place
  rcases one _ 0 (one _ 1 (one _ 2 (one v 3 (.inr (freeCount_le st v))))) with h | h
  · exact h
  · exact placementDone_of_freeCount (by omega)

/-- The list R100 gives, in the model's own terms. -/
theorem placedList_eq (st : Settings) (v : Scr) : placedList st v = v.shares.map fun e =>
    match ((v.shares.filter fun e => e.state = .waiting && v.allows st.presenter e).zip (allSlots.filter (v.isFree st))).find?
      (fun d => d.1 = e) with
    | some d => { e with state := .shown d.2 }
    | none => e := by
  have f : (fun e : ShareEntry => decide (e.state = .waiting ∧ MayBeShown st.presenter v e)) =
      fun e => e.state = .waiting && v.allows st.presenter e := by
    funext e
    rw [Bool.eq_iff_iff]
    simp only [decide_eq_true_eq, Bool.and_eq_true, allows_iff]
  have g : (fun k => decide (FreeSlot st v k)) = v.isFree st := by
    funext k
    rw [Bool.eq_iff_iff]
    simp only [decide_eq_true_eq, isFree_iff]
  rw [← f, ← g]
  rfl

/-- A complete pass has nothing more to place. -/
theorem placedList_of_done {st : Settings} {v : Scr} (h : PlacementDone st v) : placedList st v = v.shares := by
  rw [placedList_eq]
  rcases (placementDone_iff st v).mp h with h | h
  · have : allSlots.filter (v.isFree st) = [] := by simp [h]
    simp [this]
  · have : (v.shares.filter fun e => e.state = .waiting && v.allows st.presenter e) = [] := by
      rw [List.filter_eq_nil_iff]
      intro e me
      by_cases w : e.state = .waiting
      · simp [h e me w]
      · simp [w]
    simp [this]

/-- A slot stays free, or not, when another one is taken. -/
theorem isFree_placed {st : Settings} {v : Scr} {k : SlotId} {e : ShareEntry} {as bs : List ShareEntry}
    (hs : v.shares = as ++ e :: bs) (w : e.state = .waiting) (j : SlotId) (hj : j ≠ k) :
    Scr.isFree { v with shares := as ++ { e with state := .shown k } :: bs } st j = v.isFree st j := by
  simp only [Scr.isFree, entryIn_isNone, hs, List.all_append, List.all_cons, w, ShareState.slot]
  simp [Ne.symm hj]

/-- One placement leaves less to do and the same list to come to (R100). -/
theorem placedList_placeOne (st : Settings) (v : Scr) (n : (v.shares.map (·.point)).Nodup) :
    placedList st (v.placeOne st) = placedList st v := by
  unfold Scr.placeOne
  split
  case h_2 => rfl
  case h_1 k e hk he =>
    obtain ⟨pe, as, bs, hs, ha⟩ := List.find?_eq_some_iff_append.mp he
    obtain ⟨pk, cs, ds, hc, hcs⟩ := List.find?_eq_some_iff_append.mp hk
    simp only [Bool.not_eq_true'] at ha
    have w : e.state = .waiting := by simp only [Bool.and_eq_true, decide_eq_true_eq] at pe; exact pe.1
    have ne : ∀ d ∈ as ++ bs, d.point ≠ e.point := by
      rw [hs] at n
      simp only [List.map_append, List.map_cons, List.nodup_append, List.nodup_cons] at n
      intro d md
      rcases List.mem_append.mp md with m | m
      · exact n.2.2 _ (List.mem_map_of_mem m) _ List.mem_cons_self
      · exact fun h => n.2.1.1 (h ▸ List.mem_map_of_mem m)
    have moved : (v.shares.map fun d => if d.point = e.point ∧ d.state = .waiting then { d with state := .shown k } else d) =
        as ++ { e with state := .shown k } :: bs := by
      have same : ∀ l : List ShareEntry, (∀ d ∈ l, d.point ≠ e.point) →
          (l.map fun d => if d.point = e.point ∧ d.state = .waiting then { d with state := .shown k } else d) = l := by
        intro l h
        rw [List.map_congr_left (g := id) fun d m => by simp [h d m]]
        simp
      rw [hs, List.map_append, List.map_cons, same as fun d m => ne d (List.mem_append_left _ m),
        same bs fun d m => ne d (List.mem_append_right _ m)]
      simp [w]
    have slots : allSlots.filter (Scr.isFree { v with shares := as ++ { e with state := .shown k } :: bs } st) = ds.filter (v.isFree st) ∧
        allSlots.filter (v.isFree st) = k :: ds.filter (v.isFree st) := by
      have once : allSlots.Nodup := by decide
      rw [hc] at once ⊢
      simp only [List.nodup_append, List.nodup_cons] at once
      have taken : Scr.isFree { v with shares := as ++ { e with state := .shown k } :: bs } st k = false := by
        simp [Scr.isFree, entryIn_isNone, ShareState.slot]
      have none_ : cs.filter (v.isFree st) = [] := by
        rw [List.filter_eq_nil_iff]; intro j m; simpa using hcs j m
      have eq : ∀ l : List SlotId, k ∉ l →
          l.filter (Scr.isFree { v with shares := as ++ { e with state := .shown k } :: bs } st) = l.filter (v.isFree st) := by
        intro l h
        exact List.filter_congr fun j m => isFree_placed hs w j fun e => h (e ▸ m)
      rw [List.filter_append, List.filter_append, eq cs fun m => once.2.2 k m k List.mem_cons_self rfl, none_, List.filter_cons, List.filter_cons]
      simp [taken, pk, eq ds once.2.1.1]
    have left : (v.shares.filter fun e => e.state = .waiting && v.allows st.presenter e) =
        e :: bs.filter fun e => e.state = .waiting && v.allows st.presenter e := by
      have : (as.filter fun e => e.state = .waiting && v.allows st.presenter e) = [] := by
        rw [List.filter_eq_nil_iff]; intro d m; rw [ha d m]; exact Bool.false_ne_true
      rw [hs, List.filter_append, this, List.filter_cons]
      simp only [pe, ↓reduceIte, List.nil_append]
    have left' : ((as ++ { e with state := .shown k } :: bs).filter fun e => e.state = .waiting && v.allows st.presenter e) =
        bs.filter fun e => e.state = .waiting && v.allows st.presenter e := by
      have : (as.filter fun e => e.state = .waiting && v.allows st.presenter e) = [] := by
        rw [List.filter_eq_nil_iff]; intro d m; rw [ha d m]; exact Bool.false_ne_true
      rw [List.filter_append, this, List.filter_cons]
      simp
    rw [placedList_eq, placedList_eq]
    have al : ∀ d, Scr.allows { v with shares := as ++ { e with state := .shown k } :: bs } st.presenter d = v.allows st.presenter d :=
      fun _ => rfl
    simp only [moved, al, left', slots.1, left, slots.2, List.zip_cons_cons]
    rw [hs]
    simp only [List.map_append, List.map_cons, List.find?_cons]
    have other : ∀ d ∈ as ++ bs, decide (e = d) = false := fun d m => by
      simpa using fun h : e = d => ne d m (h ▸ rfl)
    have gone : ((bs.filter fun e => e.state = .waiting && v.allows st.presenter e).zip (ds.filter (v.isFree st))).find?
        (fun d => decide (d.1 = { e with state := .shown k })) = none := by
      rw [List.find?_eq_none]
      rintro ⟨d, j⟩ m
      have := List.of_mem_zip m
      simp only [List.mem_filter, Bool.and_eq_true, decide_eq_true_eq] at this
      intro h
      have h : d = { e with state := .shown k } := by simpa using h
      rw [h] at this
      simp at this
    congr 1
    · exact List.map_congr_left fun d m => by simp only [other d (List.mem_append_left _ m)]
    · rw [gone]
      simp only [decide_true]
      exact congrArg _ <| List.map_congr_left fun d m => by simp only [other d (List.mem_append_right _ m)]

/-- One placement keeps the points of the list. -/
theorem placeOne_points (st : Settings) (v : Scr) : (v.placeOne st).shares.map (·.point) = v.shares.map (·.point) := by
  unfold Scr.placeOne
  split
  · simp only [List.map_map]
    exact List.map_congr_left fun d _ => by simp only [Function.comp]; split <;> rfl
  · rfl

/-- The placement pass gives the list of R100. -/
theorem place_list (st : Settings) (v : Scr) (n : (v.shares.map (·.point)).Nodup) : (v.place st).shares = placedList st v := by
  rw [← placedList_of_done (place_done st v)]
  unfold Scr.place
  rw [placedList_placeOne, placedList_placeOne, placedList_placeOne, placedList_placeOne]
  all_goals simpa only [placeOne_points] using n

theorem place_placed (st : Settings) (v : Scr) : List.Forall₂ PlacedFrom v.shares (v.place st).shares :=
  placedFrom_trans (placedFrom_trans (placedFrom_trans (placeOne_placed st v) (placeOne_placed st _)) (placeOne_placed st _))
    (placeOne_placed st _)

/-- The placement pass leaves everything but the list's states alone. -/
theorem place_shares (st : Settings) (v : Scr) : v.place st = { v with shares := (v.place st).shares } := by
  unfold Scr.place
  rw [placeOne_shares st (((v.placeOne st).placeOne st).placeOne st), placeOne_shares st ((v.placeOne st).placeOne st),
    placeOne_shares st (v.placeOne st), placeOne_shares st v]

@[simp] theorem place_seats (st : Settings) (v : Scr) : (v.place st).seats = v.seats := by rw [place_shares]

@[simp] theorem place_points (st : Settings) (v : Scr) : (v.place st).points = v.points := by rw [place_shares]

@[simp] theorem place_speakers (st : Settings) (v : Scr) : (v.place st).speakers = v.speakers := by rw [place_shares]

@[simp] theorem place_queue (st : Settings) (v : Scr) : (v.place st).queue = v.queue := by rw [place_shares]

@[simp] theorem place_lead (st : Settings) (v : Scr) : (v.place st).lead = v.lead := by rw [place_shares]

@[simp] theorem place_power (st : Settings) (v : Scr) : (v.place st).power = v.power := by rw [place_shares]

@[simp] theorem place_endingMark (st : Settings) (v : Scr) : (v.place st).endingMark = v.endingMark := by rw [place_shares]

@[simp] theorem place_agenda (st : Settings) (v : Scr) : (v.place st).agenda = v.agenda := by rw [place_shares]

@[simp] theorem place_organiserName (st : Settings) (v : Scr) : (v.place st).organiserName = v.organiserName := by rw [place_shares]

@[simp] theorem place_page (st : Settings) (v : Scr) : (v.place st).page = v.page := by rw [place_shares]

/-- Whether the placement pass is complete does not depend on what is derived afterwards. -/
theorem PlacementDone.congr {st : Settings} {v w : Scr} (h : PlacementDone st v) (hs : w.shares = v.shares) (hp : w.points = v.points)
    (hl : w.speakers = v.speakers) : PlacementDone st w := by
  have f : ∀ k, w.isFree st k = v.isFree st k := by intro k; simp [Scr.isFree, Scr.entryIn, hs]
  have a : ∀ e, w.allows st.presenter e = v.allows st.presenter e := by intro e; simp [Scr.allows, Scr.hears, hp, hl]
  refine (placementDone_iff st w).mpr ?_
  rcases (placementDone_iff st v).mp h with h | h
  · exact .inl fun k => by rw [f, h]
  · exact .inr fun e he hw => by rw [a]; exact h e (hs ▸ he) hw

/-- What a screen change can do (R109): the list is placed, contents are derived, reports are sent, and nothing else changes. -/
theorem screened_settled (s : State) (plates : Bool) : ScreenSettled s.settings s.scr (s.screened plates).scr := by
  have done := place_done s.settings s.scr
  have ent := place_placed s.settings s.scr
  have e : ∀ q, (s.screened q).settings = s.settings := by intro q; cases q <;> rfl
  cases plates
  all_goals
    simp only [State.screened, State.placeShares, State.deriveScreens, State.derivePlates, Bool.false_eq_true, ↓reduceIte]
    exact ⟨ent, done.congr rfl rfl rfl, place_list _ _, place_points _ _, place_speakers _ _, place_queue _ _, place_lead _ _, place_power _ _,
      place_endingMark _ _, place_agenda _ _, place_organiserName _ _, place_page _ _, fun x => by simp⟩

theorem ScreenSettled.of_told {st : Settings} {v w : Scr} (h : ScreenSettled st v w) (b : Bool) :
    ScreenSettled st v { w with emptyTold := b } :=
  ⟨h.entries, h.placed.congr rfl rfl rfl, h.list, h.points, h.speakers, h.queue, h.lead, h.power, h.endingMark, h.agenda, h.organiser, h.page, h.held⟩

theorem screenChange_settled (cause : ShareCause) (plates : Bool) (s0 s1 : State) :
    ScreenSettled s1.settings s1.scr (State.screenChange cause plates s0 s1).scr :=
  (screened_settled s1 plates).of_told _

theorem screened_frame (s : State) (plates : Bool) : s.screened plates = { s with scr := (s.screened plates).scr } := by
  cases plates <;> rfl

/-- A screen change leaves everything but the Screen Router and the reports as the event's own handling made it. -/
theorem screenChange_eq (cause : ShareCause) (plates : Bool) (s0 s1 : State) :
    State.screenChange cause plates s0 s1 =
      { s1 with
        scr := (State.screenChange cause plates s0 s1).scr
        flight := s1.flight ++ screenResults cause s0.scr (s1.screened plates).scr } := by
  cases plates <;> rfl

theorem screenChange_flight (cause : ShareCause) (plates : Bool) (s0 s1 : State) :
    ∃ out, (State.screenChange cause plates s0 s1).flight = s1.flight ++ out := by
  rw [screenChange_eq]; exact ⟨_, rfl⟩

@[simp] theorem screenChange_settings (cause : ShareCause) (plates : Bool) (s0 s1 : State) :
    (State.screenChange cause plates s0 s1).settings = s1.settings := by rw [screenChange_eq]

@[simp] theorem screenChange_tbc (cause : ShareCause) (plates : Bool) (s0 s1 : State) :
    (State.screenChange cause plates s0 s1).tbc = s1.tbc := by rw [screenChange_eq]

@[simp] theorem screenChange_flc (cause : ShareCause) (plates : Bool) (s0 s1 : State) :
    (State.screenChange cause plates s0 s1).flc = s1.flc := by rw [screenChange_eq]

@[simp] theorem screenChange_mix (cause : ShareCause) (plates : Bool) (s0 s1 : State) :
    (State.screenChange cause plates s0 s1).mix = s1.mix := by rw [screenChange_eq]

@[simp] theorem screenChange_vdt (cause : ShareCause) (plates : Bool) (s0 s1 : State) :
    (State.screenChange cause plates s0 s1).vdt = s1.vdt := by rw [screenChange_eq]

@[simp] theorem screenChange_bks (cause : ShareCause) (plates : Bool) (s0 s1 : State) :
    (State.screenChange cause plates s0 s1).bks = s1.bks := by rw [screenChange_eq]

@[simp] theorem screenChange_msc (cause : ShareCause) (plates : Bool) (s0 s1 : State) :
    (State.screenChange cause plates s0 s1).msc = s1.msc := by rw [screenChange_eq]

@[simp] theorem screenChange_rln (cause : ShareCause) (plates : Bool) (s0 s1 : State) :
    (State.screenChange cause plates s0 s1).rln = s1.rln := by rw [screenChange_eq]

@[simp] theorem screenChange_pcu (cause : ShareCause) (plates : Bool) (s0 s1 : State) :
    (State.screenChange cause plates s0 s1).pcu = s1.pcu := by rw [screenChange_eq]

@[simp] theorem screenChange_cph (cause : ShareCause) (plates : Bool) (s0 s1 : State) :
    (State.screenChange cause plates s0 s1).cph = s1.cph := by rw [screenChange_eq]

@[simp] theorem screenChange_pending (cause : ShareCause) (plates : Bool) (s0 s1 : State) :
    (State.screenChange cause plates s0 s1).pending = s1.pending := by rw [screenChange_eq]

theorem shareNoticeDue_iff (a b : Scr) : shareNoticeDue a b = true ↔
    a.shares ≠ b.shares ∨ (∃ p, (a.points.get p).signal ≠ (b.points.get p).signal) ∨ a.screens ≠ b.screens := by
  simp [shareNoticeDue, or_assoc]

/-- A screen change sends the results of R109's list and no others. -/
theorem mem_screenResults (cause : ShareCause) (s t : State) (i : Instr) :
    i ∈ screenResults cause s.scr t.scr ↔ ScreenReports cause t.scr.emptyTold s t i := by
  have empty : ∀ b : Bool, (b = true ↔ t.scr.shares = []) ↔ b = t.scr.shares.isEmpty := by
    intro b
    cases b <;> cases t.scr.shares <;> simp
  simp only [screenResults, plateChanges, shareEmptyResult, List.mem_append, List.mem_flatMap, mem_allSeats, true_and, mem_ite_nil,
    List.mem_singleton, shareNoticeDue_iff]
  cases i <;> simp only [ScreenReports, empty, reduceCtorEq, and_false, exists_false, or_false, false_or, Instr.nameplateChange.injEq,
    Instr.shareListEmptyReport.injEq, Instr.notice.injEq]
  case nameplateChange x => exact ⟨fun ⟨_, h, e⟩ => e ▸ h, fun h => ⟨x, h, rfl⟩⟩
  case shareListEmptyReport b => exact ⟨fun ⟨h, e⟩ => ⟨e, e ▸ h⟩, fun ⟨e, h⟩ => ⟨e ▸ h, e⟩⟩
  case notice k p => exact and_comm

@[simp] theorem place_emptyTold (st : Settings) (v : Scr) : (v.place st).emptyTold = v.emptyTold := by rw [place_shares]

theorem screenChange_scr (cause : ShareCause) (plates : Bool) (s0 s1 : State) : (State.screenChange cause plates s0 s1).scr =
    { (s1.screened plates).scr with emptyTold := (s1.screened plates).scr.shares.isEmpty } := rfl

@[simp] theorem screened_emptyTold (s : State) (plates : Bool) : (s.screened plates).scr.emptyTold = s.scr.emptyTold := by
  cases plates <;> exact place_emptyTold _ _

/-- What a screen change sends behind what was in flight (R109). -/
theorem screenChange_sends (cause : ShareCause) (plates : Bool) (s0 s1 : State) :
    ∃ out, (State.screenChange cause plates s0 s1).flight = s1.flight ++ out ∧
      ∀ i, i ∈ out ↔ ScreenReports cause s1.scr.emptyTold s0 (State.screenChange cause plates s0 s1) i := by
  refine ⟨_, by rw [screenChange_eq], fun i => ?_⟩
  rw [mem_screenResults, screened_emptyTold]
  cases i <;> simp only [ScreenReports, screenChange_scr]
  case notice => rfl

/-- An event whose handling is a screen change, with more reports behind it, told its results. -/
theorem screenChange_told (cause : ShareCause) (plates : Bool) (s0 s1 t : State) (more : List Instr)
    (b : s1.flight = s0.flight ∨ ∃ c, s1.flight = s0.flight.erase c) (k : s1.scr.emptyTold = s0.scr.emptyTold)
    (h : t = (State.screenChange cause plates s0 s1).emit more) (f : ∀ i ∈ more, FollowsScreens i) : ScreenTold cause s0 t := by
  obtain ⟨out, he, hm⟩ := screenChange_sends cause plates s0 s1
  rw [k] at hm
  have same : ∀ i, ScreenReports cause s0.scr.emptyTold s0 t i ↔
      ScreenReports cause s0.scr.emptyTold s0 (State.screenChange cause plates s0 s1) i := by
    subst h
    intro i
    simp only [ScreenReports, State.emit_scr]
  refine ⟨s1.flight, out ++ more, b, ?_, fun i hi => List.mem_append_left _ ((hm i).mpr ((same i).mp hi)), fun i hi => ?_⟩
  · rw [h, State.emit_flight, he, List.append_assoc]
  · exact (List.mem_append.mp hi).imp (fun m => (same i).mpr ((hm i).mp m)) (f i)

end Sys2Proof.Machine
end

