-- ==== Sys2Proof/Laws/Store.lean ====
section
/-! SUPPORT. What a change of a store slot, the start of a write and its end can do, said once (R128, R129). -/

namespace Sys2Proof.Machine

open Sys2Proof

/-- The soundness of the write queue, of the store alone (R128). -/
def Bks.QueueSound (b : Bks) : Prop := b.queue.Nodup ∧ ∀ w ∈ b.writing, w.slot ∉ b.queue

theorem storeQueueSound_iff (s : State) : StoreQueueSound s ↔ s.bks.QueueSound := Iff.rfl

theorem persist_clean {b : Bks} {k : StoreSlot} (h : b.persist k = .clean) : k ∉ b.queue ∧ ∀ w ∈ b.writing, w.slot ≠ k := by
  unfold Bks.persist at h
  split at h
  · rename_i w hw
    split at h
    · cases h
    · rename_i ne
      split at h
      · cases h
      · rename_i nq
        exact ⟨nq, by simp [hw, ne]⟩
  · rename_i hw
    split at h
    · cases h
    · rename_i nq
      exact ⟨nq, by simp [hw]⟩

/-- A change to a slot touches the queue and the mark of the write in flight alone. -/
theorem noteChange_eq (k : StoreSlot) (b : Bks) :
    b.noteChange k = { b with queue := (b.noteChange k).queue, writing := (b.noteChange k).writing } := by
  unfold Bks.noteChange
  split <;> rfl

theorem noteChange_sound {k : StoreSlot} {b : Bks} (h : b.QueueSound) : (b.noteChange k).QueueSound := by
  unfold Bks.noteChange
  split
  · rename_i c
    obtain ⟨nq, nw⟩ := persist_clean c
    refine ⟨by simpa [List.nodup_append, nq] using ⟨h.1, fun a m e => nq (e ▸ m)⟩, fun w hw => ?_⟩
    simp [h.2 w hw, nw w hw]
  · exact h
  · refine ⟨h.1, fun w hw => ?_⟩
    obtain ⟨v, hv, rfl⟩ := Option.map_eq_some_iff.1 hw
    exact h.2 v hv

/-- The start of a write touches the queue and the write in flight alone. -/
theorem startWrite_eq (b : Bks) : b.startWrite = { b with queue := b.startWrite.queue, writing := b.startWrite.writing } := by
  unfold Bks.startWrite
  split <;> rfl

theorem startWrite_sound {b : Bks} (h : b.QueueSound) : b.startWrite.QueueSound := by
  unfold Bks.startWrite
  split
  · rename_i k rest _ _ hq
    have nd := h.1
    rw [hq, List.nodup_cons] at nd
    exact ⟨nd.2, by simpa using nd.1⟩
  · exact h

/-- Under a supply hold no write starts (R130). -/
theorem startWrite_held {b : Bks} (h : b.supplyHeld = true) : b.startWrite = b := by
  simp [Bks.startWrite, h]

theorem change_eq (k : StoreSlot) (b : Bks) :
    b.change k = { b with queue := (b.change k).queue, writing := (b.change k).writing } := by
  unfold Bks.change
  rw [startWrite_eq (b.noteChange k), noteChange_eq k b]

@[simp] theorem change_bookings (k : StoreSlot) (b : Bks) : (b.change k).bookings = b.bookings := by rw [change_eq]

@[simp] theorem change_participants (k : StoreSlot) (b : Bks) : (b.change k).participants = b.participants := by rw [change_eq]

@[simp] theorem change_durable (k : StoreSlot) (b : Bks) : (b.change k).durable = b.durable := by rw [change_eq]

@[simp] theorem change_saveImage (k : StoreSlot) (b : Bks) : (b.change k).saveImage = b.saveImage := by rw [change_eq]

@[simp] theorem change_supplyHeld (k : StoreSlot) (b : Bks) : (b.change k).supplyHeld = b.supplyHeld := by rw [change_eq]

@[simp] theorem change_waiters (k : StoreSlot) (b : Bks) : (b.change k).waiters = b.waiters := by rw [change_eq]

theorem change_sound {k : StoreSlot} {b : Bks} (h : b.QueueSound) : (b.change k).QueueSound := startWrite_sound (noteChange_sound h)

theorem setBooking_sound {i : BSlot} {v : Option Booking} {b : Bks} (h : b.QueueSound) : (b.setBooking i v).QueueSound := by
  unfold Bks.setBooking
  split
  · exact h
  · exact change_sound (b := { b with bookings := b.bookings.upd i v }) h

theorem setParticipant_sound {p : PIdx} {v : Option Participant} {b : Bks} (h : b.QueueSound) :
    (b.setParticipant p v).QueueSound := by
  unfold Bks.setParticipant
  split
  · exact h
  · exact change_sound (b := { b with participants := b.participants.upd p v }) h

theorem endWrite_sound {b : Bks} {w : WriteInFlight} (m : w ∈ b.writing) (h : b.QueueSound) : (b.endWrite w).QueueSound := by
  unfold Bks.endWrite
  refine ⟨?_, by simp⟩
  split
  · have := h.2 w m
    simpa [List.nodup_append, this] using ⟨h.1, fun a n e => this (e ▸ n)⟩
  · exact h.1

end Sys2Proof.Machine
end

