-- ==== Sys2Proof/WellFormed.lean ====
section
/-! DEFINITION. When a command's operands are ones the part can be given: what the frame layouts of R188 and R189 can carry, and what
a report of a block can say. -/

namespace Sys2Proof

/-- A one-byte value. -/
def byteOk (n : Nat) : Bool := n < 256

/-- A two-byte value. -/
def wordOk (n : Nat) : Bool := n < 65536

/-- A number of a two-byte field, signed or not (R189). -/
def numOk (v : NumArg) : Bool := v.all fun n => -32768 ≤ n && n ≤ 65535

/-- A gain of a two-byte field (R189). -/
def gainOk : Gain → Bool
  | .mute => true
  | .code c => -32768 ≤ c && c ≤ 32767

/-- A text of at most 255 characters (R189). -/
def textOk (t : Text) : Bool := t.length ≤ 255

/-- A time of two two-byte fields. -/
def timeOk (t : DayMinute) : Bool := wordOk t.day && wordOk t.minute

/-- The pairs of an attendee list as given. -/
def pairsOk (l : List (Nat × Nat)) : Bool := l.length ≤ 255 && l.all fun a => byteOk a.1 && byteOk a.2

/-- The parameters of ADD-BOOKING (R119). -/
def formOk (f : BookingForm) : Bool :=
  timeOk f.start && timeOk f.stop && textOk f.title && f.organiser.all byteOk && f.chair.all byteOk && f.vice.all byteOk
    && f.limit.all wordOk && wordOk f.noShow && pairsOk f.attendees

/-- The parameters of EDIT-BOOKING (R122). -/
def editOk (e : BookingEdit) : Bool :=
  e.start.all timeOk && e.stop.all timeOk && e.title.all textOk && e.organiser.all (·.all byteOk) && e.chair.all (·.all byteOk)
    && e.vice.all (·.all byteOk) && e.limit.all (·.all wordOk) && e.noShow.all wordOk && e.attendees.all pairsOk

/-- A share signal comes from a DELEGATE-SHARE unit alone (R2). -/
def answerOk (a : Answer) : Bool := !a.shareSignal || a.kind = .delegateShare

/-- The table bus sends MIC, PRIORITY and NEXT to the floor, and only qualifying edges (R10). -/
def keyEventOk (k : Key) (e : KeyEdge) (m : KeyMode) : Bool :=
  match k with
  | .mic => e = .press || m = .pushToTalk
  | .priority => true
  | .next => e = .press
  | .share => false

/-- A seat comes ONLINE from ABSENT or OFFLINE, and goes OFFLINE from ONLINE (R5, R6, R7). -/
def presenceMoves (was now : Presence) : Bool :=
  match was, now with
  | .absent, .online => true
  | .offline, .online => true
  | .online, .offline => true
  | _, _ => false

/-- A held floor: at most 8 speakers and 24 waiting, distinct seats (R21, R22). -/
def viewOk (v : FloorView) : Bool :=
  (v.speakers.map (·.seat) ++ v.queue).Nodup && v.speakers.length ≤ 8 && v.queue.length ≤ 24 && v.lead ≤ 120

/-- The causes of a wake request (R171). -/
def wakeCause : PowerCause → Bool
  | .booking | .key | .line | .command => true
  | .idle | .sleepDelay | .start | .audioClock | .settled => false

/-- A seat plan (R117). -/
def planOk (p : SeatPlan) : Bool :=
  (p.attendees.map (·.1)).Nodup && (p.attendees.map (·.2)).Nodup && (p.chair.isNone || p.chair ≠ p.vice)

/-- The titles of an agenda (R106, R116). -/
def agendaOk (a : Agenda) : Bool := a.current.all (fun c => c.title.length ≤ 40) && a.next.all fun n => n.title.length ≤ 40

/-- The plans of a booking report (R123). -/
def bookingReportOk : BookingReport → Bool
  | .added _ => true
  | .edited _ old new _ _ => planOk old && planOk new
  | .cancelled _ _ => true

/-- A command whose operands the part can be given. -/
def Instr.wf : Instr → Bool
  | .reset _ _ => true
  | .poll _ => true
  | .acceptedAnswer _ answer => answerOk answer
  | .missedAnswer _ => true
  | .samplePeriod mics _ => (mics.map (·.1)).Nodup
  | .rampTick => true
  | .block => true
  | .secondEvent => true
  | .noShowDeadline => true
  | .graceDeadline => true
  | .speechTimerExpiry => true
  | .refusalFlashExpiry _ => true
  | .lossTimerExpiry _ => true
  | .floorGraceExpiry _ => true
  | .idleTimerExpiry => true
  | .sleepTimerExpiry => true
  | .presenceTimerExpiry _ => true
  | .chimePulseEnd => true
  | .endingBlinkPhase => true
  | .lineSample _ => true
  | .storeWriteEnd => true
  | .roomCrystalStopped => true
  | .roomCrystalRunning => true
  | .audioCrystalStopped => true
  | .audioCrystalRunning => true
  | .powerSettleEnd => true
  | .enumerationEnd => true
  | .keyEvent _ key edge mode => keyEventOk key edge mode
  | .voiceOnset _ => true
  | .voiceEnd _ => true
  | .presenceReportAtFlc _ was now => presenceMoves was now
  | .presenceReportAtMix _ now => now ≠ .absent
  | .presenceReportAtVdt _ now => now ≠ .absent
  | .presenceReportAtScr _ now => now ≠ .absent
  | .floorChangeAtMix view => (view.speakers.map (·.1)).Nodup && view.speakers.length ≤ 8
  | .floorChangeAtScr view => viewOk view
  | .speechRemainingReport left => (left.map (·.1)).Nodup && left.all fun p => p.2.all (· ≤ 3600)
  | .eligibilityReport _ _ => true
  | .enabledReportAtTbc _ _ => true
  | .enabledReportAtScr _ _ => true
  | .ringChange _ => true
  | .nameplateChange _ => true
  | .shareKeyEvent _ => true
  | .shareSignalReport _ _ => true
  | .muteSwitchAtMix _ => true
  | .muteSwitchAtFlc _ => true
  | .supplyWarningReport _ => true
  | .micFlagReport _ => true
  | .occupancyEdge _ _ => true
  | .wakeRequest cause => wakeCause cause
  | .bookingCurrentReport _ => true
  | .floorEmptyReport _ => true
  | .shareListEmptyReport _ => true
  | .activationReport activation => planOk activation.plan && activation.limit.all fun n => 1 ≤ n && n ≤ 8
  | .endingReport _ _ => true
  | .attendeeEditReport plan _ => planOk plan
  | .seatingReport _ _ => true
  | .participantDeletionReport _ => true
  | .keyFlagClearing _ => true
  | .activationAtScr _ agenda => agendaOk agenda
  | .droppedSeatsReport seats => seats.Nodup
  | .agendaReport agenda => agendaOk agenda
  | .endingMarkReport _ => true
  | .participantEditReport _ => true
  | .sessionLampReport _ => true
  | .liveLampReport _ => true
  | .endingBlinkReport _ => true
  | .chimeRequest => true
  | .powerStateReport _ power phase => phase.isSome = (power = .waking : Bool)
  | .bookingReport report => bookingReportOk report
  | .notice _ payload => payload.length ≤ 1024
  | .blockResult _ _ payload => payload.length ≤ 1024
  | .post _ _ => true
  | .fetch _ _ => true
  | .portReset _ _ => true
  | .setKeyMode _ _ _ => true
  | .setDebounce _ polls => numOk polls
  | .readSeat _ first count => byteOk first && byteOk count
  | .clearKeyFlags _ _ keys => keys.all fun l => decide l.Nodup
  | .grant _ _ => true
  | .grantNext _ => true
  | .addRequest _ _ => true
  | .close _ _ => true
  | .closeSpeakers _ => true
  | .clearQueue _ => true
  | .setFloorMode _ _ _ => true
  | .setOpenLimit _ limit _ => numOk limit
  | .setOverflow _ _ => true
  | .setPriorityPolicy _ _ => true
  | .setSpeechLimit _ limit lead _ => numOk limit && numOk lead
  | .enableSeat _ _ _ => true
  | .setRole _ _ _ _ => true
  | .readFloor _ => true
  | .setMaster _ value => numOk value
  | .setTrim _ _ value => numOk value
  | .setSpeakerLevel _ value => numOk value
  | .setSelfDuck _ value => numOk value
  | .setDuck _ value => numOk value
  | .setNom _ _ => true
  | .setExclusion _ value => numOk value
  | .setRemoteGain _ gain => gain.all gainOk
  | .readMeters _ first count => byteOk first && byteOk count
  | .setVoiceThreshold _ value => numOk value
  | .setVoiceOnset _ value => numOk value
  | .setVoiceHold _ value => numOk value
  | .setLayout _ _ _ => true
  | .setSlot _ _ _ => true
  | .setCaption _ _ => true
  | .setPresenterPolicy _ _ => true
  | .setFloorGrace _ seconds => numOk seconds
  | .shareStart _ _ => true
  | .shareStop _ _ => true
  | .approveShare _ _ _ => true
  | .bindSharePoint _ _ _ => true
  | .readScreens _ first count => byteOk first && byteOk count
  | .addBooking _ form => formOk form
  | .cancelBooking _ _ => true
  | .deleteBooking _ _ => true
  | .editBooking _ _ edit => editOk edit
  | .addParticipant _ name note => textOk name && textOk note
  | .editParticipant _ _ name note => name.all textOk && note.all textOk
  | .deleteParticipant _ _ => true
  | .readBooking _ _ => true
  | .listBookings _ states first => byteOk first && states.Nodup
  | .readParticipant _ first count => byteOk first && byteOk count
  | .saveSettings _ => true
  | .setClock _ day second => wordOk day && second < 4294967296
  | .readClock _ => true
  | .checkIn _ => true
  | .extend _ _ stop => timeOk stop
  | .endNow _ _ => true
  | .setPreStartLead _ minutes => numOk minutes
  | .setOverrunGrace _ minutes => numOk minutes
  | .setLockPolicy _ _ => true
  | .setLine _ _ _ => true
  | .clearLineFlags _ lines => lines.all fun l => decide l.Nodup
  | .readLines _ => true
  | .quiet _ => true
  | .sleep _ => true
  | .wake _ => true
  | .setIdleTime _ minutes => numOk minutes
  | .setSleepDelay _ minutes => numOk minutes
  | .setStartState _ _ => true
  | .subscribe _ kinds => kinds.all fun l => decide l.Nodup
  | .claim _ wanted window => (wanted.all fun l => decide l.Nodup) && numOk window
  | .release _ named => named.all fun l => decide l.Nodup
  | .presence _ _ => true
  | .identify _ => true
  | .status _ => true

end Sys2Proof
end

