-- ==== Sys2Proof/Tests/Slice0.lean ====
section
/-! SUPPORT. Tests: well-formedness refuses one ill-formed command per check, the spec's own tables and worked examples, single steps on small states,
and for each statement with hypotheses a state that meets them. -/

namespace Sys2Proof.Tests

open Sys2Proof Sys2Proof.Machine

-- One test at a time: many kernel evaluations at once take more threads than the memory limit of the check allows.
set_option Elab.async false

/-! ## Builders -/

def ref : CmdRef := ⟨0, 0⟩

/-- The state an outcome goes on with. -/
def out (o : Out) : State :=
  match o with
  | .next t => t
  | _ => State.reset

/-- A room in FULL with its bus polled, its engine running, and one seat record for seat 0 at the table bus. -/
def bus (t : TbcSeat) : State :=
  { State.reset with
    tbc := { power := some .full, seats := Tab.upd (Tab.all 64 {}) 0 t }
    mix := { power := some .full }
    pcu := { power := some .full, audio := .running } }

def onlineUnit : TbcSeat := { presence := .online, kind := .chair }

/-- A room in FULL with a floor. -/
def room (f : Flc) : State :=
  { State.reset with
    flc := f, mix := { power := some .full }, vdt := { power := some .full }, scr := { power := .full }
    pcu := { power := some .full, audio := .running } }

/-- A floor with every seat enabled and ONLINE, seat 0 the CHAIR. -/
def table : Flc :=
  { seats := Tab.gen fun x => { enabled := true, online := true, role := if x = 0 then .chair else .ordinary }, power := some .full }

def speaker (x : Seat) (o : Origin := .key) : SpeakerEntry :=
  { seat := x, origin := o, day := 0, second := 0, remaining := none, priority := x = 0, overtime := false }

def waiter (x : Seat) (o : Origin := .key) : QueueEntry := ⟨x, o, 0, 0⟩

/-- A screen state in FULL with share point 1 bound to seat 1. -/
def screens (v : Scr) : State :=
  { room table with
    scr := { v with power := .full }
    settings := { Settings.factory with binding := Tab.upd (Tab.all 16 none) 1 (some 1) } }

def shown (p : Point) (x : Seat) (k : SlotId) : ShareEntry := ⟨p, x, .shown k, false⟩

/-- A booking of an hour from day 1, 10:00. -/
def meeting (st : BState) : Booking :=
  { calRef := 7, state := st, start := ⟨1, 600⟩, stop := ⟨1, 660⟩, title := [0x41], organiser := none, plan := {}, mode := none
    limit := none, noShow := 10, checkedIn := false, actualEnd := none }

/-- A store whose slot 0 holds a booking, at a time of day 1. -/
def day (st : BState) (second : Nat) : State :=
  { room table with
    bks := { bookings := Tab.upd (Tab.all 32 none) 0 (some (meeting st)) }
    msc := { clock := .set, day := 1, second := second } }

def form : BookingForm :=
  { calRef := 7, start := ⟨1, 600⟩, stop := ⟨1, 660⟩, title := [0x41], organiser := none, chair := none, vice := none, mode := none
    limit := none, noShow := 10, attendees := [] }

def power (p : Power) (phase : Option Phase) : State := { State.reset with pcu := { power := some p, phase := phase, audio := .running } }

/-- A port with what it holds. -/
def port (t : PortState) : State := { power .full none with cph := { ports := Tab.upd (Tab.all 3 {}) 0 t } }

/-- A whole frame of a body. -/
def frameOf (body : List Byte) : Frame := ⟨body ++ checkOf body, .whole⟩

/-- A POST of a command record. -/
def postFrame (code cookie : Nat) (params : List Byte) : Frame :=
  let part := u16 code ++ u32 cookie ++ u16 params.length ++ params
  frameOf ([1] ++ u16 part.length ++ part)

/-! ## Well-formedness refuses -/

theorem test_wf_answer : Instr.wf (.acceptedAnswer 0 ⟨.chair, PerKey.all .up, true, .nothing⟩) = false := by decide

theorem test_wf_samples : Instr.wf (.samplePeriod [(1, 0), (1, 0)] none) = false := by decide

theorem test_wf_key_event : Instr.wf (.keyEvent 0 .share .press .toggle) = false ∧ Instr.wf (.keyEvent 0 .mic .release .toggle) = false
    ∧ Instr.wf (.keyEvent 0 .next .release .toggle) = false := by decide

theorem test_wf_presence : Instr.wf (.presenceReportAtFlc 0 .online .online) = false ∧ Instr.wf (.presenceReportAtMix 0 .absent) = false
    ∧ Instr.wf (.presenceReportAtVdt 0 .absent) = false ∧ Instr.wf (.presenceReportAtScr 0 .absent) = false := by decide

theorem test_wf_mix_floor : Instr.wf (.floorChangeAtMix ⟨[(1, true), (1, true)], false, .duck⟩) = false := by decide

theorem test_wf_floor_view : viewOk ⟨[⟨1, none, false⟩], [1], Tab.all 64 .ordinary, Tab.all 64 none, Tab.all 64 true, 30⟩ = false
    ∧ viewOk ⟨[], [], Tab.all 64 .ordinary, Tab.all 64 none, Tab.all 64 true, 121⟩ = false := by decide +kernel

theorem test_wf_remaining : Instr.wf (.speechRemainingReport [(1, some 3601)]) = false := by decide

theorem test_wf_wake : Instr.wf (.wakeRequest .idle) = false := by decide

theorem test_wf_plan : Instr.wf (.activationReport ⟨⟨[(1, 2), (1, 3)], none, none⟩, none, none, .free, .openRoom⟩) = false
    ∧ Instr.wf (.activationReport ⟨{}, none, some 9, .free, .openRoom⟩) = false
    ∧ Instr.wf (.attendeeEditReport ⟨[(1, 2), (3, 2)], none, none⟩ .free) = false
    ∧ Instr.wf (.attendeeEditReport ⟨[], some 4, some 4⟩ .free) = false := by decide

theorem test_wf_agenda : Instr.wf (.agendaReport ⟨none, some ⟨List.replicate 41 0x41, ⟨0, 0⟩, ⟨0, 5⟩⟩⟩) = false
    ∧ Instr.wf (.activationAtScr true ⟨none, some ⟨List.replicate 41 0x41, ⟨0, 0⟩, ⟨0, 5⟩⟩⟩) = false := by decide

theorem test_wf_dropped : Instr.wf (.droppedSeatsReport [1, 1]) = false := by decide

theorem test_wf_phase : Instr.wf (.powerStateReport .tbc .full (some .pollPass)) = false
    ∧ Instr.wf (.powerStateReport .tbc .waking none) = false := by decide

theorem test_wf_booking_report : Instr.wf (.bookingReport (.edited 0 {} ⟨[], some 4, some 4⟩ false false)) = false := by decide

theorem test_wf_payload : Instr.wf (.notice .floor (List.replicate 1025 0)) = false
    ∧ Instr.wf (.blockResult ref .ok (List.replicate 1025 0)) = false := by decide +kernel

theorem test_wf_number : Instr.wf (.setDebounce ref (some 65536)) = false ∧ Instr.wf (.setMaster ref (some (-32769))) = false
    ∧ Instr.wf (.setRemoteGain ref (some (.code 32768))) = false := by decide

theorem test_wf_run : Instr.wf (.readSeat ref 256 1) = false ∧ Instr.wf (.readMeters ref 0 256) = false := by decide

theorem test_wf_sets : Instr.wf (.clearKeyFlags ref .all (some [.mic, .mic])) = false ∧ Instr.wf (.clearLineFlags ref (some [1, 1])) = false
    ∧ Instr.wf (.subscribe ref (some [.floor, .floor])) = false ∧ Instr.wf (.claim ref (some [.mix, .mix]) (some 10)) = false
    ∧ Instr.wf (.release ref (some [.mix, .mix])) = false ∧ Instr.wf (.listBookings ref [none, none] 0) = false := by decide

theorem test_wf_form : Instr.wf (.addBooking ref { form with noShow := 65536 }) = false
    ∧ Instr.wf (.addBooking ref { form with attendees := [(256, 0)] }) = false
    ∧ Instr.wf (.editBooking ref none { start := some ⟨65536, 0⟩ }) = false := by decide

theorem test_wf_texts : Instr.wf (.addParticipant ref (List.replicate 256 0x41) []) = false
    ∧ Instr.wf (.editParticipant ref none none (some (List.replicate 256 0x41))) = false := by decide +kernel

theorem test_wf_times : Instr.wf (.setClock ref 65536 0) = false ∧ Instr.wf (.extend ref none ⟨0, 65536⟩) = false := by decide

theorem test_wf_accepts : Instr.wf (.keyEvent 0 .mic .press .toggle) = true ∧ Instr.wf (.presenceReportAtFlc 0 .absent .online) = true
    ∧ Instr.wf (.addBooking ref form) = true ∧ Instr.wf (.powerStateReport .tbc .waking (some .pollPass)) = true := by decide

/-! ## The spec's tables and worked examples -/

/-- The check of the bytes 31 to 39 (10 section 10.7). -/
theorem test_frame_check : frameCheck [0x31, 0x32, 0x33, 0x34, 0x35, 0x36, 0x37, 0x38, 0x39] = 0x29B1#16 := by decide +kernel

/-- Multipliers of selected codes (R65). -/
theorem test_multipliers : multiplier (.code 24) = 65226 ∧ multiplier (.code 12) = 32690 ∧ multiplier (.code 0) = 16384
    ∧ multiplier (.code (-12)) = 8211 ∧ multiplier (.code (-22)) = 4618 ∧ multiplier (.code (-160)) = 2 ∧ multiplier .mute = 0 := by
  decide +kernel

/-- Threshold values of selected settings (R84). -/
theorem test_thresholds : thresholdValue (-12) = 4204263 ∧ thresholdValue (-60) = 265271 ∧ thresholdValue (-120) = 8389 := by decide +kernel

/-- Envelope codes of the worked example (R89). -/
theorem test_envelope_codes : envelopeCode 500000 = -49 ∧ envelopeCode 439454 = -51 ∧ envelopeCode 265271 = -60 ∧ envelopeCode 263672 = -60
    ∧ envelopeCode 15 = -160 ∧ envelopeCode 0 = -160 := by decide +kernel

/-- The NOM table (R61). -/
theorem test_nom_table : (List.range 9).map nomAttenuation = [0, 0, 6, 10, 12, 14, 16, 17, 18] := by decide

/-- Rounding at the halves (R67). -/
theorem test_rounding : rnd14 (-8192) = 0 ∧ rnd14 (-8193) = -1 ∧ rnd14 (-24576) = -1 ∧ rnd14 8192 = 1 := by decide

/-- Ramp times (R63): the settled ramps of the table, and one tick less is not enough. -/
theorem test_ramp_times : rampRun (.code (-22)) 11 .mute = .code (-22) ∧ rampRun (.code (-22)) 10 .mute ≠ .code (-22)
    ∧ rampRun (.code 24) 11 .mute = .code 24 ∧ rampRun (.code (-150)) 6 .mute = .code (-150)
    ∧ rampRun .mute 18 (.code (-18)) = .mute ∧ rampRun .mute 17 (.code (-18)) = .code (-154) := by decide

/-- Exclusion sets of seats 12 and 33 (R70). -/
theorem test_exclusion : (allSeats.filter (excluded 1 12)).map (·.val) = [11, 12, 13] ∧ (allSeats.filter (excluded 3 33)).map (·.val) = [32, 33, 34, 35, 36]
    ∧ excluded 3 31 32 = false := by decide +kernel

/-- Speaking times (R108). -/
theorem test_speaking_times : speakTime 30 (some 61) false = .minutes 2 ∧ speakTime 30 (some 60) false = .minutes 1
    ∧ speakTime 30 (some 30) false = .seconds 30 ∧ speakTime 30 (some 21) false = .seconds 30 ∧ speakTime 30 (some 20) false = .seconds 20
    ∧ speakTime 30 (some 1) false = .seconds 10 := by decide

/-- A hold is rounded to a multiple of 50, halves up (R92). -/
theorem test_hold_rounding : holdOf 125 = 150 ∧ holdOf 120 = 100 ∧ holdOf 99 = 100 ∧ holdOf 2001 = 2000 := by decide

/-- How payloads are written (R189). -/
theorem test_fields : i16 (-1) = [0xFF, 0xFF] ∧ u16 258 = [1, 2] ∧ gainField .mute = [0x7F, 0xFF] ∧ optU8 none = [0xFF]
    ∧ setField 2 [0, 8] = [1, 1] ∧ textField [0x41] = [1, 0x41] ∧ shareSignalField true = [0] ∧ seatSet (fun x => x = 8) = [0, 0, 0, 0, 0, 0, 1, 0] := by decide

/-- The words of the table spell no command: no row of it has bits. -/
theorem test_no_word_spells : decodeTableWord 16 0x0A02 = none := rfl

/-! ## Single steps -/

/-- A first answer at address 0 brings a CHAIR unit ONLINE (R5). -/
theorem test_first_answer :
    ((out (exec (.acceptedAnswer 0 ⟨.chair, PerKey.all .up, false, .nothing⟩) (bus {}))).tbc.seats.get 0).presence = .online := by decide +kernel

/-- The second test of a pressed MIC key is its press (R9, factory debounce 2). -/
theorem test_debounced_press :
    let s := out (exec (.acceptedAnswer 0 ⟨.chair, ⟨.down, .up, .up, .up⟩, false, .nothing⟩) (bus onlineUnit))
    (s.tbc.seats.get 0).flag.mic = false ∧
      ((out (exec (.acceptedAnswer 0 ⟨.chair, ⟨.down, .up, .up, .up⟩, false, .nothing⟩) s)).tbc.seats.get 0).flag.mic = true := by decide +kernel

/-- A BUMP press in a full list closes the oldest entry without priority (R23, R26). -/
theorem test_bump :
    ((out (exec (.keyEvent 5 .mic .press .toggle) { room { table with limit := 2, speakers := [speaker 0, speaker 1] } with
      settings := { Settings.factory with overflow := .bump } })).flc.speakers.map (·.seat)) = [0, 5] := by decide +kernel

/-- A PRIORITY press under CLOSE-ALL leaves the priority entries alone (R31). -/
theorem test_override_closes_all :
    ((out (exec (.keyEvent 0 .priority .press .toggle) { room { table with speakers := [speaker 1, speaker 2] } with
      settings := { Settings.factory with priorityPolicy := .closeAll } })).flc.speakers.map fun e => (e.seat, e.origin)) = [(0, .priority)] := by
  decide +kernel

/-- A close under overflow QUEUE promotes the head (R24). -/
theorem test_promotion :
    let t := out (exec (.close ref (some 1)) (room { table with limit := 1, speakers := [speaker 1], queue := [waiter 2, waiter 3] }))
    t.flc.speakers.map (fun e => (e.seat, e.origin)) = [(2, .auto)] ∧ t.flc.queue.map (·.seat) = [3] := by decide +kernel

/-- One speaker at the factory settings: target −12 (R60). -/
theorem test_target : ((out (exec (.floorChangeAtMix ⟨[(1, false)], false, .duck⟩) (room table))).mix.seats.get 1).target = .code (-12) := by
  decide +kernel

/-- Two speakers under the duck: −12 − 6 − 20 for the one without priority (R60, R62). -/
theorem test_duck :
    ((out (exec (.floorChangeAtMix ⟨[(0, true), (1, false)], true, .duck⟩) (room table))).mix.seats.get 1).target = .code (-38) := by
  decide +kernel

/-- A request fills the first free slot under AUTO (R100). -/
theorem test_placement :
    ((out (exec (.shareKeyEvent 1) (screens { points := Tab.upd (Tab.all 16 {}) 1 { signal := true } }))).scr.shares.map (·.state)) =
      [.shown .front0] := by decide +kernel

/-- The oldest WAITING entry with a signal takes the first free slot; one without a signal waits, and a held slot is not taken; FRONT is
SPLIT, and REAR 0 is AGENDA by the factory (R99, R100). -/
theorem test_placement_order :
    let w := fun p : Point => (⟨p, 1, .waiting, false⟩ : ShareEntry)
    let v : Scr := { points := Tab.gen fun p => { signal := p ≠ 1 }, shares := [w 1, w 2, ⟨5, 1, .shown .front0, false⟩, w 3] }
    ((v.place { Settings.factory with layout := ⟨.split, .full⟩ }).shares.map (·.state)) =
      [.waiting, .shown .front1, .shown .front0, .waiting] := by decide +kernel

/-- A booking that overlaps a live one is refused, and one after it is placed in the next free slot (R119). -/
theorem test_add_booking :
    (out (exec (.addBooking ref form) (day .scheduled 0))).flight = [.blockResult ref .conflict []] ∧
      ((out (exec (.addBooking ref { form with start := ⟨1, 660⟩, stop := ⟨1, 700⟩ }) (day .scheduled 0))).bks.bookings.get 1).isSome = true := by
  decide +kernel

/-- At 09:50 a booking enters PENDING under the factory lead of 10 minutes (R140). -/
theorem test_pending : ((out (exec .secondEvent (day .scheduled 35399))).bks.bookings.get 0).map (·.state) = some .pending := by decide +kernel

/-- At its start a booking that was not checked in enters AWAITING (R141). -/
theorem test_awaiting : ((out (exec .secondEvent (day .pending 35999))).bks.bookings.get 0).map (·.state) = some .awaiting := by decide +kernel

/-- At its end a running meeting enters ENDING under the factory grace of 5 minutes (R145). -/
theorem test_ending : ((out (exec .secondEvent (day .active 39599))).bks.bookings.get 0).map (·.state) = some .ending := by decide +kernel

/-- Midnight (R135). -/
theorem test_midnight :
    let t := out (exec .secondEvent { State.reset with msc := { clock := .set, day := 3, second := 86399 } })
    (t.msc.day, t.msc.second) = (4, 0) := by decide +kernel

/-- A CLAIM of FLOOR by a POST at port 0 is TAKEN and handed over (R178, R183, R189). -/
theorem test_post_claim :
    let t := out (exec (.post 0 (postFrame 0x0A02 5 [1, 0, 10])) (power .full none))
    (t.port 0).answer = [0] ∧ t.flight = [.claim ⟨0, 0⟩ (some [.floor]) (some 10)] := by decide +kernel

/-- A command that gives any set of fields begins with the set (R189): the name alone of participant 5. -/
theorem test_edit_begins_with_the_set : editParticipantRow ref [1, 1, 0x41, 5] = some (.editParticipant ref (some 5) (some [0x41]) none) := by
  decide

/-- A frame with a wrong check is MALFORMED, and one of an unknown code is completed UNKNOWN at once (R178). -/
theorem test_post_refused :
    ((out (exec (.post 0 ⟨[1, 0, 8, 0, 0, 0, 0, 0, 0, 0, 0, 0, 0], .whole⟩) (power .full none))).port 0).answer = [2] ∧
      ((out (exec (.post 0 (postFrame 0xFFFF 5 [])) (power .full none))).port 0).events = [⟨false, false, 0xFFFF, 5, 3, []⟩] := by
  decide +kernel

/-- MIX authority is needed for SET-MASTER (section 10.5). -/
theorem test_post_no_authority :
    ((out (exec (.post 0 (postFrame 0x0301 5 [0, 0])) (power .full none))).port 0).events.map (·.result) = [Result.noAuthority.ctorIdx] := by
  decide +kernel

/-- RESET with the factory store starts WAKING in POWER-SETTLE (R174). -/
theorem test_reset :
    let t := out (exec (.reset .power true) State.reset)
    t.pcu.power = some .waking ∧ t.pcu.phase = some .powerSettle ∧ t.bks.supplyHeld = true := by decide +kernel

/-- A floor mark by the name numbers of R107's list, with its position in one byte (R189). -/
theorem test_floor_mark_field : floorMarkField (.queued 3) = [1, 3] ∧ floorMarkField .nothing = [0xFF] ∧
    (floorMarkField (.speaking .over)).head? = some 0 := ⟨rfl, rfl, rfl⟩

/-- A store reset while slot 5 is WRITING (06, section 6.8), over a participant slot torn before and a spent booking whose organiser it held. -/
def cutShort : Bks :=
  { durable :=
      { bookings := Tab.upd (Tab.upd (Tab.all 32 (.good none)) 5 (.good (some (meeting .active)))) 3
          (.good (some { meeting .ended with organiser := some 10 }))
        participants := Tab.upd (Tab.all 96 (.good none)) 10 .torn }
    writing := some ⟨.booking 5, .booking (some (meeting .ended)), false⟩
    queue := [.booking 3] }

/-- The slot that was WRITING becomes free, the reference to the lost participant goes, and the repairs are queued (R133, R134). -/
theorem test_reset_repairs_the_store :
    let t := out (exec (.reset .pin true) { State.reset with bks := cutShort })
    t.bks.bookings.get 5 = none ∧ (t.bks.bookings.get 3).map (·.organiser) = some none ∧ t.pcu.start.torn = 2 ∧
      t.bks.queue = [.booking 5, .participant 10, .booking 3] := by decide +kernel

/-- A step on an empty queue takes the oldest report in flight, and idles without one (logs 2 and 3). -/
theorem test_idle_step :
    (out (step { room table with flight := [.liveLampReport false, .chimeRequest] })).flight = [.chimeRequest] ∧
      out (step (room table)) = room table := by decide +kernel

/-! ## Witnesses

Each theorem shows states and operands that meet the hypotheses of the statement it is named for, clause by clause, at the ends of the
ranges where the clause has a range. -/

/-- The outcome is a next state. -/
def goesOn (o : Out) : Bool :=
  match o with
  | .next _ => true
  | _ => false

/-- A table bus with one seat's record, on the last address of both branches. -/
def busAt (x : Seat) (t : TbcSeat) : State :=
  { bus {} with tbc := { power := some .full, seats := Tab.upd (Tab.all 64 {}) x t, nextLeft := 31, nextRight := 31 } }

/-- The other speakers of a full list of `n`, from seat 1 on. -/
def speakers (n : Nat) : List SpeakerEntry := ((allSeats.drop 1).take n).map fun x => speaker x

/-- A queue of `n`, from seat 1 on. -/
def waiters (n : Nat) : List QueueEntry := ((allSeats.drop 1).take n).map fun x => waiter x

/-- What holds of every entry a table has, said by a test that can be run. -/
theorem every_of_all {α : Type} {n : Nat} (t : Tab (Option α) n) (p : α → Bool) (h : ∀ i, (t.get i).all p = true) :
    ∀ i b, t.get i = some b → p b = true := by
  intro i b hb
  have := h i
  simpa [hb] using this

theorem witness_PollCarriesTheItem :
    State.reset.polls = false ∧
    (let s := busAt 31 { onlineUnit with ringMark := .pending }
     s.polls = true ∧ s.tbc.phase ≠ some .pollPass ∧ seatAt .left (s.tbc.nextAddress .left) = 31 ∧
        (s.tbc.seats.get 31).presence = .online ∧ (s.tbc.seats.get 31).ringMark = .pending) ∧
    (let s := busAt 63 { onlineUnit with plateMark := .pending }
     s.polls = true ∧ s.tbc.phase ≠ some .pollPass ∧ seatAt .right (s.tbc.nextAddress .right) = 63 ∧
        (s.tbc.seats.get 63).presence = .online ∧ (s.tbc.seats.get 63).ringMark ≠ .pending ∧ (s.tbc.seats.get 63).plateMark = .pending) ∧
    (let s := busAt 0 {}
     s.polls = true ∧ s.tbc.phase ≠ some .pollPass ∧ (s.tbc.seats.get 63).presence ≠ .online) ∧
    (let s := busAt 31 { onlineUnit with ringMark := .sent }
     s.polls = true ∧ (s.tbc.seats.get 31).ringMark ≠ .pending ∧ (s.tbc.seats.get 31).plateMark ≠ .pending) := by decide +kernel

/-- Polls in POLL-PASS: the completing poll of each branch, and one that does not complete the pass. -/
theorem witness_PollsInPollPass :
    let at_ := fun t : Tbc => { power .waking (some .pollPass) with tbc := { t with power := some .waking, phase := some .pollPass } }
    (let s := at_ { passRight := true, nextLeft := 31 }
     s.polls = true ∧ CompletesPass .left s ∧ ¬ CompletesPass .right { s with tbc := { s.tbc with passLeft := false } }) ∧
    (let s := at_ { passLeft := true, nextRight := 31 }
     s.polls = true ∧ CompletesPass .right s ∧ ¬ CompletesPass .left s) ∧
    ¬ CompletesPass .right (at_ { passLeft := true, nextRight := 30 }) := by
  simp [CompletesPass, power, State.polls]

theorem witness_FirstAnswerBringsTheSeatOnline :
    (let s := busAt 63 { presence := .offline }
     s.polls = true ∧ (s.tbc.seats.get 63).presence ≠ .online ∧ (s.tbc.seats.get 0).presence ≠ .online) ∧
    UnitKind.delegateShare ≠ .noUnit := by decide +kernel

theorem witness_AnswerTestsEveryKey :
    let pressed : Answer := ⟨.chair, ⟨.down, .up, .up, .up⟩, false, .plate⟩
    let s := busAt 63 { onlineUnit with heldEnabled := true, candidate := ⟨some (.down, 1), none, none, none⟩, ringMark := .sent, plateMark := .sent }
    s.polls = true ∧ (s.tbc.seats.get 63).presence = .online ∧ UnitKind.chair = (s.tbc.seats.get 63).kind ∧ UnitKind.chair ≠ .noUnit ∧
      UnitKind.delegate ≠ (s.tbc.seats.get 63).kind ∧ (tested s 63 pressed .mic).2.2 = some .press ∧ tellsFlag s 63 pressed .mic = true ∧
      edgeReports s 63 pressed .mic = [.micFlagReport 63, .keyEvent 63 .mic .press .toggle] := by
  decide +kernel

theorem witness_KeyEdgeTakesTheDebounceCount :
    KeyLevel.down ≠ .up ∧ 1 ≤ 1 ∧ 0 < 1 ∧ 3 < 4 := by decide

theorem witness_ThreeMissedAnswersTakeTheSeatOffline :
    (let s := busAt 63 { onlineUnit with missed := 1, ringMark := .sent, plateMark := .sent }
     s.polls = true ∧ (s.tbc.seats.get 0).presence ≠ .online ∧ (s.tbc.seats.get 63).presence = .online ∧ (s.tbc.seats.get 63).missed < 2 ∧
        (s.tbc.seats.get 63).ringMark = .sent ∧ (s.tbc.seats.get 63).plateMark = .sent) ∧
    (let s := busAt 63 { onlineUnit with missed := 2 }
     s.polls = true ∧ (s.tbc.seats.get 63).presence = .online ∧ 2 ≤ (s.tbc.seats.get 63).missed) := by decide +kernel

theorem witness_ContentReportsMarkTheSeat :
    let s := busAt 63 onlineUnit
    (s.tbc.seats.get 63).presence = .online ∧ (s.tbc.seats.get 0).presence ≠ .online := by decide +kernel

theorem witness_KeyModesAndFlags :
    SeatSel.all ≠ .one none ∧ SeatSel.one (some 63) ≠ .one none ∧
      ((busAt 63 { onlineUnit with flag := PerKey.all true }).tbc.seats.get 63).flag.get .share = true := by decide +kernel

theorem witness_ReadingCommands :
    (1 ≤ 1 ∧ 16 ≤ 16 ∧ 48 + 16 ≤ 64 ∧ 63 + 1 ≤ 64) ∧ (0 = 0 ∨ 16 < 0) ∧ 16 < 17 ∧ 64 < 63 + 2 ∧ 63 < 64 ∧ 31 < 32 ∧ 80 + 16 ≤ 96 ∧
    (day .active 0).bks.bookings.get 31 = none ∧ (day .active 0).bks.bookings.get 0 = some (meeting .active) ∧
    (day .pending 35400).nextDueMinute = some (instant 1 36000) ∧ State.reset.nextDueMinute = none ∧ 32 ≤ 32 ∧ 96 < 95 + 2 := by decide +kernel

theorem witness_MicPressOutsideVoiceMode :
    (let s := room { table with limit := 2, speakers := speakers 1 }
     s.flc.hears = true ∧ s.flc.takesPart 63 = true ∧ s.flc.mode ≠ .voice ∧ s.flc.speaks 63 = false ∧ s.flc.waits 63 = false ∧ s.flc.mode = .openMode ∧
        s.flc.speakers.length < s.flc.limit ∧ s.flc.holds s.settings.priorityPolicy = false) ∧
    (let s := room { table with limit := 2, speakers := speakers 1, overrides := [1] }
     s.flc.hears = true ∧ hasPriority (s.flc.role 0) = true ∧ s.flc.takesPart 0 = true ∧ s.flc.speaks 0 = false) ∧
    (let s := room { table with mode := .request, queue := waiters 23 }
     s.flc.hears = true ∧ s.flc.takesPart 63 = true ∧ s.flc.mode ≠ .voice ∧ s.flc.speaks 63 = false ∧ s.flc.waits 63 = false ∧ s.flc.mode ≠ .openMode ∧
        s.flc.queue.length < 24) ∧
    (let s := room { table with mode := .auto, queue := waiters 24 }
     s.flc.hears = true ∧ s.flc.takesPart 63 = true ∧ s.flc.mode ≠ .voice ∧ s.flc.speaks 63 = false ∧ s.flc.waits 63 = false ∧ s.flc.mode ≠ .openMode ∧
        24 ≤ s.flc.queue.length) ∧
    (let s := room { table with speakers := speakers 4, queue := waiters 24 }
     s.flc.hears = true ∧ s.flc.takesPart 4 = true ∧ s.flc.mode ≠ .voice ∧ s.flc.speaks 4 = true ∧ s.flc.takesPart 24 = true ∧ s.flc.speaks 24 = false ∧
        s.flc.waits 24 = true) ∧
    { table with power := some .waking }.hears = false ∧ { table with power := some .full }.takesPart 63 = true ∧
    ({ power := some .full } : Flc).takesPart 63 = false := by decide +kernel

/-- A full list under each overflow policy, and the three cases of the victim. -/
theorem witness_MicPressInAFullList :
    let under := fun (o : Overflow) (q : Nat) =>
      { room { table with limit := 2, speakers := speakers 2, queue := (waiters (q + 2)).drop 2 } with settings := { Settings.factory with overflow := o } }
    (∀ o ∈ ([.deny, .queue, .bump] : List Overflow), let s := under o 23
      s.flc.hears = true ∧ s.flc.takesPart 63 = true ∧ s.flc.mode = .openMode ∧ s.flc.speaks 63 = false ∧ s.flc.waits 63 = false ∧
        s.flc.limit ≤ s.flc.speakers.length ∧ s.settings.overflow = o ∧ s.flc.queue.length < 24 ∧ s.flc.victim = some 1 ∧
        s.flc.holds s.settings.priorityPolicy = false) ∧
    ((under .queue 24).flc.waits 63 = false ∧ 24 ≤ (under .queue 24).flc.queue.length) ∧
    (let s := { room { table with speakers := [speaker 0], overrides := [0] } with
        settings := { Settings.factory with priorityPolicy := .closeAll, overflow := .bump } }
     s.flc.holds s.settings.priorityPolicy = true ∧ hasPriority (s.flc.role 63) = false ∧ s.flc.takesPart 63 = true ∧
        (∀ e ∈ s.flc.speakers, e.priority = true) ∧ (∀ e ∈ s.flc.speakers, s.flc.role e.seat ≠ .vice) ∧
        s.flc.speakers.find? (fun d => s.flc.role d.seat = .chair) = some (speaker 0)) ∧
    (let f := { table.put 5 { table.seats.get 5 with role := .vice } with speakers := [speaker 0, { speaker 5 with priority := true }] }
     (∀ e ∈ f.speakers, e.priority = true) ∧ f.speakers.find? (fun d => f.role d.seat = .vice) = some { speaker 5 with priority := true }) ∧
    { table with speakers := [speaker 0, speaker 1] }.speakers.find? (fun d => !d.priority) = some (speaker 1) := by decide +kernel

theorem witness_KeysOfTheChair :
    (let s := room { table with speakers := speaker 0 :: speakers 3, queue := waiters 24 }
     s.flc.hears = true ∧ s.flc.takesPart 0 = true ∧ hasPriority (s.flc.role 0) = true ∧ s.flc.speaks 0 = true ∧ s.flc.waits 0 = false ∧ 0 ∉ s.flc.overrides) ∧
    (let s := room { table with limit := 2, speakers := [speaker 0], queue := [waiter 63] }
     s.flc.hears = true ∧ s.flc.takesPart 0 = true ∧ hasPriority (s.flc.role 0) = true ∧ s.flc.queue = waiter 63 :: [] ∧ s.flc.speakers.length < s.flc.limit) ∧
    (let s := room { table with limit := 4, speakers := speakers 3, queue := [waiter 0] }
     s.flc.hears = true ∧ s.flc.takesPart 0 = true ∧ hasPriority (s.flc.role 0) = true ∧ s.flc.speaks 0 = false ∧ 0 ∉ s.flc.overrides ∧
        s.flc.speakers.length < s.flc.limit) ∧
    (let s := room { table with limit := 4, speakers := speakers 4, queue := [waiter 63] }
     s.flc.hears = true ∧ s.flc.takesPart 0 = true ∧ hasPriority (s.flc.role 0) = true ∧ s.flc.speaks 0 = false ∧ 0 ∉ s.flc.overrides ∧
        s.flc.limit ≤ s.flc.speakers.length ∧ s.flc.victim = some 1) ∧
    (let s := room table
     s.flc.hears = true ∧ s.flc.takesPart 63 = true ∧ hasPriority (s.flc.role 63) = false ∧ s.flc.takesPart 0 = true ∧ s.flc.queue = []) := by
  decide +kernel

/-- The PUSH-TO-TALK rows of R25: a speaking seat, and seats that wait with each origin. -/
theorem witness_PushToTalk :
    let s := room { table with speakers := [speaker 1], queue := [waiter 2, waiter 3 .port, waiter 63 .voice] }
    s.flc.hears = true ∧ s.flc.mode ≠ .voice ∧ s.flc.takesPart 1 = true ∧ s.flc.speaks 1 = true ∧
      (∀ x ∈ ([2, 3, 63] : List Seat), s.flc.takesPart x = true ∧ s.flc.speaks x = false) ∧
      s.flc.queue.find? (fun d => d.seat = 2) = some (waiter 2) ∧ (waiter 2).origin = .key ∧
      s.flc.queue.find? (fun d => d.seat = 3) = some (waiter 3 .port) ∧ s.flc.queue.find? (fun d => d.seat = 63) = some (waiter 63 .voice) ∧
      s.flc.speaks 4 = false ∧ s.flc.waits 4 = false ∧ s.flc.takesPart 4 = true := by decide +kernel

/-- The other cases of VOICE mode (R27, R28): a speaker of another origin, seats that wait with origin PORT and VOICE, an idle seat, and an onset
under the hold, under DUCK, and with a full queue. -/
theorem witness_VoiceModeCases :
    (let s := room { table with mode := .voice, speakers := [speaker 1], queue := [waiter 2 .port, waiter 3 .voice] }
     s.flc.hears = true ∧ s.flc.mode = .voice ∧ (∀ x ∈ ([1, 2, 3, 4] : List Seat), s.flc.takesPart x = true ∧ (s.flc.seats.get x).selfMuted = false) ∧
        (∃ e ∈ s.flc.speakers, e.seat = 1 ∧ e.origin ≠ .voice) ∧ (∃ q ∈ s.flc.queue, q.seat = 2 ∧ q.origin = .port) ∧
        (∀ q ∈ s.flc.queue, q.seat = 3 → q.origin ≠ .port) ∧ s.flc.speaks 3 = false ∧ s.flc.waits 3 = true ∧ s.flc.speaks 4 = false ∧
        s.flc.waits 4 = false) ∧
    (let under := fun p : PriorityPolicy =>
       { room { table with mode := .voice, limit := 4, speakers := [speaker 0], overrides := [0], queue := (waiters 26).drop 2 } with
         settings := { Settings.factory with priorityPolicy := p } }
     (under .duck).flc.holds .duck = false ∧ (under .closeAll).flc.holds .closeAll = true ∧ hasPriority ((under .closeAll).flc.role 63) = false ∧
        (under .duck).flc.speakers.length < (under .duck).flc.limit ∧ (under .closeAll).flc.takesPart 63 = true ∧
        24 ≤ (under .closeAll).flc.queue.length ∧ (under .closeAll).flc.speaks 63 = false ∧ (under .closeAll).flc.waits 63 = false) := by
  decide +kernel

theorem witness_VoiceModeMovesTheFloor :
    (let s := room { table with mode := .voice, limit := 2, speakers := [speaker 63 .voice], queue := waiters 23 }
     s.flc.hears = true ∧ s.flc.mode = .voice ∧ s.flc.takesPart 63 = true ∧ (∀ e ∈ s.flc.speakers, e.seat = 63 → e.origin = .voice) ∧
        (∀ q ∈ s.flc.queue, q.seat ≠ 63) ∧ s.flc.speaks 63 = true ∧ (s.flc.seats.get 63).selfMuted = false ∧
        (∃ e ∈ s.flc.speakers, e.seat = 63 ∧ e.origin = .voice) ∧
        s.flc.speaks 62 = false ∧ s.flc.waits 62 = false ∧ (s.flc.seats.get 62).selfMuted = false ∧ s.flc.takesPart 62 = true ∧
        s.flc.speakers.length < s.flc.limit ∧ s.flc.overrides = []) ∧
    (let s := room { table.put 63 { table.seats.get 63 with selfMuted := true } with mode := .voice, speakers := [speaker 0 .key] }
     s.flc.hears = true ∧ s.flc.mode = .voice ∧ s.flc.takesPart 63 = true ∧ (∀ e ∈ s.flc.speakers, e.seat ≠ 63) ∧ (∀ q ∈ s.flc.queue, q.seat ≠ 63) ∧
        (s.flc.seats.get 63).selfMuted = true ∧ ∀ e ∈ s.flc.speakers, e.seat = 0 → e.origin ≠ .voice) ∧
    (let s := room { table with mode := .voice, limit := 1, speakers := [speaker 0], queue := waiters 23 }
     s.flc.hears = true ∧ s.flc.mode = .voice ∧ s.flc.takesPart 63 = true ∧ (s.flc.seats.get 63).selfMuted = false ∧ s.flc.speaks 63 = false ∧
        s.flc.waits 63 = false ∧ s.flc.limit ≤ s.flc.speakers.length ∧ s.flc.queue.length < 24) ∧
    (room table).flc.mode ≠ .voice ∧
    { table with power := some .waking }.hears = false := by decide +kernel

theorem witness_FloorTimersExpire :
    (room table).settings.expiryAction = .warn ∧
      ({ room table with settings := { Settings.factory with expiryAction := .close } }).settings.expiryAction = .close ∧
      SpeakerEntry.due { speaker 63 with remaining := some 0 } = true ∧
    (let s := { room { table with speakers := [{ speaker 63 with remaining := some 1 }] } with msc := { clock := .set, second := 86397 } }
     s.msc.clock ≠ .lost ∧ s.msc.second < 86399 ∧ (s.msc.second + 1) % 60 ≠ 0 ∧ s.flc.power = some .full ∧
        s.flc.speakers.map SpeakerEntry.ticked = [{ speaker 63 with remaining := some 0 }] ∧
        s.flc.speakers.map SpeakerEntry.ticked ≠ s.flc.speakers) ∧
    State.reset.flc.power ≠ some .full := by decide +kernel

theorem witness_MeetingsReachTheFloor :
    let plan : SeatPlan := ⟨[(63, 95)], some 0, none⟩
    let s := room { table with plan := ⟨[(1, 2)], none, none⟩ }
    plan.lists 63 = true ∧ s.flc.plan.lists 63 = false ∧ plan.attendees ≠ [] ∧ plan.names 1 = false ∧ s.flc.plan.lists 1 = true ∧
      ({} : SeatPlan).attendees = [] ∧ s.flc.plan.attendees ≠ [] ∧ State.reset.flc.plan.attendees = [] ∧ plan.names 62 = false ∧
      (room { table with seating := .openRoom }).flc.seating ≠ .lockedRoom ∧ (room table).flc.seating ≠ .openRoom := by
  decide +kernel

theorem witness_GrantsAndRequests :
    let s := room { table with limit := 2, speakers := speakers 1, queue := (waiters 24).drop 1 }
    s.pcu.power = some .full ∧ s.flc.takesPart 63 = true ∧ s.flc.speaks 63 = false ∧ s.flc.waits 63 = false ∧
      s.flc.speakers.length < s.flc.limit ∧ s.flc.holds s.settings.priorityPolicy = false ∧
      s.flc.queue = waiter 2 :: (waiters 24).drop 2 ∧ s.flc.queue.length < 24 ∧ promotes .request s.settings.overflow = false := by decide +kernel

theorem witness_ClosingCommands :
    let s := room { table with limit := 2, speakers := speakers 1, queue := (waiters 24).drop 1 }
    s.pcu.power = some .full ∧ s.flc.speaks 1 = true ∧ s.flc.speaks 24 = false ∧ s.flc.waits 24 = true ∧ s.flc.speaks 63 = false ∧
      s.flc.waits 63 = false := by decide +kernel

theorem witness_FloorSettingCommands :
    let s := room { table with limit := 8, speakers := speakers 8, overrides := [0] }
    s.pcu.power = some .full ∧ FloorMode.auto ≠ .voice ∧ s.flc.mode ≠ .voice ∧ (s.flc.speakers.length : Int) ≤ clampInt 1 8 9 ∧
      PriorityPolicy.closeAll ≠ s.settings.priorityPolicy ∧ s.flc.overrides ≠ [] ∧ { table with mode := .voice }.mode = .voice := by decide +kernel

/-- A sound floor whose list is longer than a new limit. -/
theorem witness_FloorSettingCommands_lower :
    let s := room { table with limit := 4, speakers := speaker 0 :: speakers 3, overrides := [0] }
    FloorSound s.flc ∧ clampInt 1 8 1 < (s.flc.speakers.length : Int) ∧ clampInt 1 8 0 = 1 :=
  ⟨⟨by decide +kernel, by decide +kernel, by decide +kernel, by decide +kernel, by decide +kernel, by decide +kernel, by decide +kernel,
    by decide +kernel, by decide +kernel⟩, by decide +kernel, by decide⟩

theorem witness_SeatSettingCommands :
    (room table).pcu.power = some .full ∧ (room table).flc.seating = .lockedRoom ∧ ((room table).flc.seats.get 63).enabled = true ∧
      (room { table with seating := .openRoom }).flc.seating ≠ .lockedRoom := by decide +kernel

theorem witness_RingsFollowTheTable :
    (let t := State.floorChange .report State.reset (room { table with muteSwitch := true })
     t.flc.muteSwitch = true ∧ (t.flc.seats.get 63).ring ≠ (State.reset.flc.seats.get 63).ring) ∧
    (let t := State.floorChange .keyEvent State.reset (room (table.put 63 { table.seats.get 63 with flash := some 1 }))
     t.flc.muteSwitch = false ∧ (t.flc.seats.get 63).selfMuted = false ∧ (t.flc.seats.get 63).flash ≠ none) ∧
    (let t := State.floorChange .keyEvent State.reset
        (room { table with limit := 2, speakers := [{ speaker 63 with remaining := some 30 }, { speaker 62 with remaining := some 31 }]
                           queue := waiters 2 })
     (t.flc.seats.get 63).flash = none ∧ t.flc.speakers.find? (fun d => d.seat = 63) = some { speaker 63 with remaining := some 30 } ∧
        t.flc.speaks 62 = true ∧ t.flc.speaks 1 = false ∧ t.flc.queue = waiter 1 :: [waiter 2] ∧ t.flc.waits 2 = true ∧
        t.flc.waits 0 = false) := by decide +kernel

theorem witness_PromotionOpensHeads :
    let f := { table with mode := .auto, limit := 2, queue := waiters 24 }
    promotes f.mode .queue = true ∧ (f.queue.map (·.seat)).Nodup ∧ State.reset.flc.queue ≠ (room f).flc.queue ∧
      State.reset.flc.limit ≠ (room f).flc.limit ∧ State.reset.flc.mode ≠ (room f).flc.mode := by decide +kernel

theorem witness_OutputsOfASamplePeriod :
    let s := { bus {} with mix := { power := some .full, seats := Tab.upd (Tab.all 64 {}) 63 { online := true } } }
    s.engineRuns = true ∧ (s.mix.seats.get 63).online = true ∧ (s.mix.seats.get 0).online = false ∧ State.reset.engineRuns = false ∧
      s.pcu.audio = .running ∧ s.vdt.samples < 48 ∧ 47 < 48 ∧ ({ s with vdt := { samples := 48 } }).pcu.audio = .running ∧
      48 ≤ ({ s with vdt := { samples := 48 } }).vdt.samples ∧ State.reset.pcu.audio ≠ .running ∧
      ({ s with mix := {} }).pcu.audio = .running ∧ ({ s with mix := {} }).engineRuns = false := by
  decide +kernel

/-- Two inputs that differ at seat 62, in the exclusion set of seat 63, agree outside it. -/
theorem witness_FeedHearsNoExcludedSeat :
    let s := { bus {} with mix := { power := some .full, seats := Tab.upd (Tab.all 64 {}) 63 { online := true } } }
    s.engineRuns = true ∧ (∀ j, excluded s.mix.radius 63 j = false → micOf [(62, 0x7FFFFF#24)] j = micOf [(62, 0x800000#24)] j) ∧
      micOf [(62, 0x7FFFFF#24)] 62 ≠ micOf [(62, 0x800000#24)] 62 ∧
      goesOn (exec (.samplePeriod [(62, 0x7FFFFF#24)] none) s) = true ∧
      goesOn (exec (.samplePeriod [(62, 0x800000#24)] none) s) = true := by
  decide +kernel

theorem witness_RampTickMovesEveryCode :
    let m : Gain → Gain → MixSeat := fun t a => { target := t, applied := a }
    let seats := fun x : Seat =>
      if x = 0 then m (.code 24) (.code 24) else if x = 1 then m (.code (-160)) .mute else if x = 2 then m .mute (.code (-160))
      else if x = 3 then m (.code 24) (.code 23) else if x = 4 then m (.code (-160)) (.code 24) else m .mute .mute
    let s := { bus {} with mix := { power := some .full, seats := Tab.gen seats } }
    s.engineRuns = true ∧ State.reset.engineRuns = false ∧ (s.mix.seats.get 0).applied = (s.mix.seats.get 0).target ∧
      (s.mix.seats.get 1).applied = .mute ∧ (s.mix.seats.get 1).target = .code (-160) ∧
      (s.mix.seats.get 2).applied = .code (-160) ∧ (s.mix.seats.get 2).target = .mute ∧
      (s.mix.seats.get 3).applied = .code 23 ∧ (s.mix.seats.get 3).target = .code 24 ∧
      (s.mix.seats.get 4).applied = .code 24 ∧ (s.mix.seats.get 4).target = .code (-160) := by decide +kernel

theorem witness_RampReachesItsTarget : gainInRange (.code 24) ∧ gainInRange (.code (-160)) ∧ 92 ≤ 92 := by simp [gainInRange]

theorem witness_LevelsAreTheNearestIntegers :
    (-160 ≤ (-160 : Int) ∧ (-160 : Int) ≤ 24 ∧ (24 : Int) ≤ 24) ∧ (-120 ≤ (-120 : Int) ∧ (-120 : Int) ≤ -12 ∧ (-12 : Int) ≤ -12) := by decide

theorem witness_TargetsFollowTheGainPlan :
    (room table).pcu.power = some .full ∧
      (let s := { room table with mix := { power := some .full, speakers := [(63, true)] } }
       s.mix.mute = false ∧ s.mix.speakers.find? (fun d => d.1 = 63) = some (63, true) ∧ ∀ e ∈ s.mix.speakers, e.1 ≠ 0) := by decide +kernel

theorem witness_NumericSettings :
    (room table).pcu.power = some .full ∧ 100 ≤ (125 : Int) ∧ (125 : Int) ≤ 2000 ∧ (99 : Int) < 100 ∧ 2000 < (2001 : Int) := by decide +kernel

theorem witness_BlockEndsAtEverySeat :
    let v : DetState → Nat → VdtSeat := fun d n => { online := true, floorEligible := true, state := d, peak := n, whole := true, count := 4 }
    let seats := fun x : Seat =>
      if x = 0 then v .quiet 265270 else if x = 1 then v .quiet 265271 else if x = 2 then v .voice 265271
      else if x = 3 then v .voice 265270 else if x = 4 then v .onset 265271 else {}
    let s := { room table with vdt := { power := some .full, seats := Tab.gen seats, samples := 48 } }
    let e := fun x : Seat => max (s.vdt.seats.get x).peak ((s.vdt.seats.get x).env - (s.vdt.seats.get x).env / 16)
    State.reset.pcu.audio ≠ .running ∧ s.pcu.audio = .running ∧ 48 ≤ s.vdt.samples ∧ ({ s.vdt with samples := 47 } : Vdt).samples < 48 ∧
      (∀ x : Seat, x.val < 5 → (s.vdt.seats.get x).eligible s.vdt.power = true ∧ (s.vdt.seats.get x).whole = true) ∧
      (s.vdt.seats.get 63).eligible s.vdt.power = false ∧ 2 ≤ s.settings.onset ∧
      e 0 < thresholdValue s.settings.threshold ∧ thresholdValue s.settings.threshold ≤ e 1 ∧ thresholdValue s.settings.threshold ≤ e 2 ∧
      e 3 < thresholdValue s.settings.threshold ∧ thresholdValue s.settings.threshold ≤ e 4 ∧
      s.settings.onset ≤ (s.vdt.seats.get 4).count + 1 := by decide +kernel

/-- The other detector steps of a block: ONSET below the threshold and short of its count, HOLD above, below and at its last block, and QUIET
above with an onset setting of 1. -/
theorem witness_BlockSteps :
    let v : DetState → Nat → Nat → Nat → VdtSeat := fun d n c h =>
      { online := true, floorEligible := true, state := d, peak := n, whole := true, count := c, hold := h }
    let seats := fun x : Seat =>
      if x = 0 then v .onset 265270 4 0 else if x = 1 then v .onset 265271 3 0 else if x = 2 then v .hold 265271 0 1
      else if x = 3 then v .hold 265270 0 2 else if x = 4 then v .hold 265270 0 1 else if x = 5 then v .quiet 265271 0 0 else {}
    let s := { room table with vdt := { power := some .full, seats := Tab.gen seats, samples := 48 } }
    let e := fun x : Seat => max (s.vdt.seats.get x).peak ((s.vdt.seats.get x).env - (s.vdt.seats.get x).env / 16)
    s.pcu.audio = .running ∧ 48 ≤ s.vdt.samples ∧
      (∀ x : Seat, x.val < 6 → (s.vdt.seats.get x).eligible s.vdt.power = true ∧ (s.vdt.seats.get x).whole = true) ∧
      e 0 < thresholdValue s.settings.threshold ∧ thresholdValue s.settings.threshold ≤ e 1 ∧ (s.vdt.seats.get 1).count + 1 < s.settings.onset ∧
      thresholdValue s.settings.threshold ≤ e 2 ∧ e 3 < thresholdValue s.settings.threshold ∧ 2 ≤ (s.vdt.seats.get 3).hold ∧
      e 4 < thresholdValue s.settings.threshold ∧ (s.vdt.seats.get 4).hold = 1 ∧ thresholdValue s.settings.threshold ≤ e 5 ∧
      { s.settings with onset := 1 }.onset = 1 := by decide +kernel

theorem witness_OnsetAndHoldCountTheirBlocks :
    ({} : VdtSeat).state = .quiet ∧ ({ state := .voice } : VdtSeat).state = .voice ∧ 1 ≤ 15 ∧ 14 < 15 ∧ 15 ≤ 15 ∧ 2000 ≤ 2000 ∧ 2000 < 2001 := by
  decide

theorem witness_EligibilityReportsAtTheDetector :
    let s := { room table with vdt := { power := some .full
                                        seats := Tab.upd (Tab.all 64 {}) 63 { online := true, floorEligible := true, state := .hold } } }
    (s.vdt.seats.get 63).eligible s.vdt.power = true ∧ Presence.offline ≠ .online ∧ (s.vdt.seats.get 63).state = .hold := by decide +kernel

theorem witness_SeatsLeaveTheScreens :
    pointOf (screens {}).settings 63 = none ∧ pointOf (screens {}).settings 1 = some 1 := by decide +kernel

theorem witness_ReportsAtTheScreens :
    (screens {}).settings.presenter ≠ .floor ∧
      (let st := { (screens {}).settings with presenter := .floor }
       st.presenter = .floor ∧ st.floorGrace ≠ 0 ∧ ({ st with floorGrace := 0 } : Settings).floorGrace = 0) ∧
      (({ agenda := ⟨some ⟨[0x41], some 95, ⟨1, 600⟩, ⟨1, 660⟩⟩, none⟩ } : Scr).agenda.current.bind (·.organiser)) = some 95 := by decide +kernel

theorem witness_ShareKeysSignalsAndTimers :
    (let s := screens { points := Tab.upd (Tab.all 16 {}) 1 { signal := true } }
     pointOf s.settings 1 = some 1 ∧ s.scr.hasEntry 1 = false ∧ isDark s.scr.power = false ∧
        s.scr.points.get 1 = { signal := true, loss := none } ∧ (s.scr.points.get 15).loss = none) ∧
    (let s := screens { shares := [⟨1, 1, .grace .front0 1, false⟩], points := Tab.upd (Tab.all 16 {}) 1 { signal := true, loss := some 1 } }
     s.scr.hasEntry 1 = true ∧ s.pcu.audio = .running ∧ State.reset.pcu.audio ≠ .running ∧ (s.scr.points.get 1).loss ≠ none ∧ ∀ e ∈ s.scr.shares, e.point = 15 → e.inGrace = false) ∧
    ∃ e ∈ (screens { shares := [⟨1, 1, .grace .front0 1, false⟩] }).scr.shares, e.point = 1 ∧ ∃ k n, e.state = .grace k n := by
  refine ⟨by decide +kernel, by decide +kernel, _, List.mem_cons_self, rfl, _, _, rfl⟩

theorem witness_ScreenSettings :
    (let s := { screens { shares := [shown 1 1 .front0, shown 2 2 .rear1] } with
        settings := { Settings.factory with layout := ⟨.full, .split⟩ } }
     s.pcu.power = some .full ∧ SlotsInForce s ∧ Layout.full ≠ s.settings.layout.get .rear ∧ Source.roomPc ≠ s.settings.source.get .front0) ∧
    true ≠ Settings.factory.caption ∧ PresenterPolicy.chair ≠ Settings.factory.presenter := by
  refine ⟨⟨rfl, ?_, by decide, by decide⟩, by decide, by decide⟩
  intro e he k hk
  simp only [screens, List.mem_cons, List.not_mem_nil, or_false] at he
  rcases he with rfl | rfl <;> (cases Option.some.inj hk; decide)

theorem witness_SharePointCommands :
    (let s := screens { seats := Tab.upd (Tab.all 64 {}) 1 { enabled := true, online := true } }
     s.pcu.power = some .full ∧ s.settings.binding.get 1 = some 1 ∧ (s.scr.seats.get 1).enabled = true ∧ (s.scr.seats.get 1).online = true ∧
        s.scr.hasEntry 1 = false ∧ s.settings.binding.get 15 ≠ some 63 ∧ (∀ q, s.settings.binding.get q ≠ some 63) ∧
        (1 : Point) ≠ 15 ∧ s.settings.binding.get 15 ≠ some 1) ∧
    (screens { shares := [shown 1 1 .front0] }).scr.hasEntry 1 = true ∧ (screens {}).settings.binding.get 0 = none := by decide +kernel

theorem witness_SpeakingTimeIsRoundedUp : 30 ≠ 0 ∧ 30 ≤ 30 ∧ 30 < 31 ∧ 0 ≤ 120 := by decide

theorem witness_BookingCommands :
    (let s := day .scheduled 0
     let k := { meeting .scheduled with start := ⟨1, 660⟩, stop := ⟨1, 665⟩ }
     s.bks.recordOf { form with start := ⟨1, 660⟩, stop := ⟨1, 665⟩ } = some k ∧ s.msc.clock = .set ∧ s.msc.minuteNow < k.stop.minutes ∧
        (∀ j b, s.bks.bookings.get j = some b → isLive b.state = true → overlap k b = false) ∧ s.bks.bookings.get 1 = none ∧
        (∀ j : BSlot, j < 1 → s.bks.bookings.get j ≠ none) ∧ State.reset.msc.clock ≠ .set ∧
        State.reset.bks.recordOf form = some (meeting .scheduled) ∧ s.bks.recordOf { form with stop := ⟨1, 604⟩ } = none ∧
        s.bks.bookings.get 0 = some (meeting .scheduled) ∧ editAllowed { title := some [0x42] } .scheduled = true ∧
        s.bks.recordOf (editedForm { title := some [0x42] } (formOfBooking (meeting .scheduled))) =
          some { meeting .scheduled with title := [0x42] } ∧
        keepingLife (meeting .scheduled) { meeting .scheduled with title := [0x42] } ≠ meeting .scheduled) ∧
    (day .ended 0).bks.bookings.get 0 = some (meeting .ended) ∧ isLive (meeting .ended).state = false := by
  refine ⟨⟨by decide +kernel, by decide +kernel, by decide +kernel, ?_, ?_⟩, by decide +kernel⟩
  · intro j b hb _
    have := every_of_all _ (fun b => !overlap { meeting .scheduled with start := ⟨1, 660⟩, stop := ⟨1, 665⟩ } b) (by decide +kernel) j b hb
    simpa using this
  · decide +kernel

/-- A store all of whose slots hold a booking of the hour from day 1, 10:00. -/
def fullStore (st : BState) : State :=
  { room table with bks := { bookings := Tab.all 32 (some (meeting st)) }, msc := { clock := .set, day := 1, second := 0 } }

/-- A full table of spent bookings, and one of live ones that are not in the way. -/
theorem witness_BookingCommands_full :
    let k := { meeting .scheduled with start := ⟨1, 660⟩, stop := ⟨1, 665⟩ }
    let f := { form with start := ⟨1, 660⟩, stop := ⟨1, 665⟩ }
    (let s := fullStore .released
     s.bks.recordOf f = some k ∧ s.msc.clock = .set ∧ s.msc.minuteNow < k.stop.minutes ∧
        (∀ j d, s.bks.bookings.get j = some d → isLive d.state = true → overlap k d = false) ∧ (∀ j, s.bks.bookings.get j ≠ none) ∧
        s.bks.bookings.get 0 = some (meeting .released) ∧ isLive (meeting .released).state = false ∧
        ∀ j d, s.bks.bookings.get j = some d → isLive d.state = false →
          reclaimKey (meeting .released) < reclaimKey d ∨ (reclaimKey (meeting .released) = reclaimKey d ∧ 0 ≤ j)) ∧
    (let s := fullStore .scheduled
     s.bks.recordOf f = some k ∧ s.msc.clock = .set ∧ s.msc.minuteNow < k.stop.minutes ∧
        ∀ j, ∃ d, s.bks.bookings.get j = some d ∧ isLive d.state = true ∧ overlap k d = false) := by
  have h : ∀ (st : BState) (j : BSlot), (fullStore st).bks.bookings.get j = some (meeting st) := fun st j => by rw [fullStore, Tab.get_all]
  refine ⟨⟨by decide +kernel, rfl, by decide +kernel, ?_, fun j => by rw [h]; simp, h _ _, rfl, ?_⟩, by decide +kernel, rfl, by decide +kernel,
    fun j => ⟨_, h _ j, rfl, by decide +kernel⟩⟩
  · intro j d hd hl; rw [h] at hd; cases hd; exact absurd hl (by decide)
  · intro j d hd _; rw [h] at hd; cases hd; exact .inr ⟨rfl, Fin.zero_le j⟩

/-- A clash, a time that has passed, and an edit of the times under each of its checks. -/
theorem witness_BookingCommands_times :
    (let s := day .active 0
     s.bks.recordOf { form with noShow := 10 } = some (meeting .scheduled) ∧ s.msc.minuteNow < (meeting .scheduled).stop.minutes ∧
        s.bks.bookings.get 0 = some (meeting .active) ∧ isLive (meeting .active).state = true ∧ overlap (meeting .scheduled) (meeting .active) = true) ∧
    (let s := day .ended 39600
     s.bks.recordOf form = some (meeting .scheduled) ∧ s.msc.clock = .set ∧ (meeting .scheduled).stop.minutes ≤ s.msc.minuteNow) ∧
    (let e : BookingEdit := { stop := some ⟨1, 700⟩ }
     let n := { meeting .scheduled with stop := ⟨1, 700⟩ }
     let at_ := fun second => (day .scheduled second).msc
     (day .scheduled 0).bks.recordOf (editedForm e (formOfBooking (meeting .scheduled))) = some n ∧ n.stop ≠ (meeting .scheduled).stop ∧
        editAllowed e .scheduled = true ∧ (at_ 0).minuteNow < n.stop.minutes ∧ n.stop.minutes ≤ (at_ 42000).minuteNow ∧
        overlap n { meeting .scheduled with start := ⟨1, 699⟩, stop := ⟨1, 710⟩ } = true) := by decide +kernel

theorem witness_ParticipantCommands :
    (let s := { day .ended 0 with bks := { (day .ended 0).bks with participants := Tab.upd (Tab.all 96 none) 0 (some ⟨[0x41], []⟩) } }
     validParticipant ⟨[], []⟩ = false ∧ validParticipant ⟨List.replicate 24 0x7E, []⟩ = true ∧ s.bks.participants.get 0 ≠ none ∧
        s.bks.participants.get 1 = none ∧ (∀ q : PIdx, q < 1 → s.bks.participants.get q ≠ none) ∧
        s.bks.participants.get 0 = some ⟨[0x41], []⟩ ∧ ([0x42] : Text) ≠ [0x41] ∧
        validParticipant ⟨[0x41], List.replicate 25 0x41⟩ = false ∧
        (∀ i k, s.bks.bookings.get i = some k → isLive k.state = true → namesParticipant k 0 = false)) ∧
    (let k := { meeting .scheduled with plan := ⟨[(63, 0)], none, none⟩ }
     let b : Bks := { bookings := Tab.upd (Tab.all 32 none) 31 (some k), participants := Tab.upd (Tab.all 96 none) 0 (some ⟨[0x41], []⟩) }
     b.participants.get 0 ≠ none ∧ b.bookings.get 31 = some k ∧ isLive k.state = true ∧ namesParticipant k 0 = true) := by
  refine ⟨⟨by decide +kernel, by decide +kernel, by decide +kernel, by decide +kernel, by decide +kernel, by decide +kernel, by decide,
    by decide +kernel, ?_⟩, by decide +kernel⟩
  intro i k hk _
  have := every_of_all _ (fun b => !namesParticipant b 0) (by decide +kernel) i k hk
  simpa using this

theorem witness_WritesBecomeDurable :
    (let b : Bks := { writing := some ⟨.booking 31, .booking none, true⟩, supplyHeld := false, queue := [.settings]
                      waiters := [⟨ref, .ok, [], [⟨.booking 31, 0⟩]⟩] }
     b.writing = some ⟨.booking 31, .booking none, true⟩ ∧ b.supplyHeld = false ∧ b.queue = .settings :: [] ∧
        ∀ u ∈ b.waiters, u.waits = [⟨.booking 31, 0⟩]) ∧
    (let b : Bks := { queue := [.participant 95] }
     b.supplyHeld = true ∧ b.writing = none ∧ b.queue = .participant 95 :: []) ∧
    (let b : Bks := { writing := some ⟨.participant 95, .participant none, true⟩, supplyHeld := false }
     b.writing = some ⟨.participant 95, .participant none, true⟩ ∧ b.supplyHeld = false ∧ b.queue = []) ∧
    (let b : Bks := { writing := some ⟨.settings, .settings Settings.factory, false⟩ }
     b.writing = some ⟨.settings, .settings Settings.factory, false⟩ ∧ b.supplyHeld = true) := by decide +kernel

theorem witness_ClockAndDeadlines :
    (let s := { State.reset with msc := { clock := .set, day := 32767, second := 86398 } }
     s.msc.clock ≠ .lost ∧ (s.msc.day < 32767 ∨ s.msc.second < 86399) ∧ s.msc.second ≤ 86399) ∧
    (let s := { State.reset with msc := { clock := .set, day := 32767, second := 86399 } }
     s.msc.clock ≠ .lost ∧ 32767 ≤ s.msc.day ∧ 86399 ≤ s.msc.second ∧ s.pcu.room = .running ∧ s.current = none) ∧
    ({ State.reset with msc := { clock := .lost } }).msc.clock = .lost ∧
    (let s := { day .awaiting 36600 with msc := { clock := .set, day := 1, second := 36600, awaitingSince := some (instant 1 36000) } }
     s.msc.clock = .set ∧ s.current = some (0, meeting .awaiting) ∧ s.releaseInstant (meeting .awaiting) ≤ s.now) ∧
    (let s := { day .ending 39900 with msc := { clock := .set, day := 1, second := 39900, graceHeld := some 5 } }
     s.msc.clock = .set ∧ s.current = some (0, meeting .ending) ∧ s.graceDeadline 0 (meeting .ending) s.graceInForce ≤ s.now) := by
  decide +kernel

/-- The clock with one live booking on the day and a MIC flag set at seat 63 or nowhere, at the instants the evaluation turns on. -/
theorem witness_ClockAndDeadlines_evaluated :
    let flagged := fun s : State => { s with tbc := s.tbc.put 63 { s.tbc.seats.get 63 with flag := ⟨true, false, false, false⟩ } }
    (instantOf (meeting .scheduled).start < instantOf (meeting .scheduled).stop ∧ (meeting .scheduled).noShow ≠ 0 ∧
      (meeting .scheduled).checkedIn = false ∧ qualifies (meeting .scheduled) 63 = true) ∧
    (let s := day .scheduled 35400
     s.msc.clock = .set ∧ s.current = none ∧ s.bks.bookings.get 0 = some (meeting .scheduled) ∧
        (∀ j b, j ≠ 0 → s.bks.bookings.get j = some b → b.state = .scheduled → s.now < leadInstant s.settings.preStartLead b) ∧
        leadInstant s.settings.preStartLead (meeting .scheduled) ≤ s.now ∧ s.now < instantOf (meeting .scheduled).start ∧
        (∀ x, (s.tbc.seats.get x).flag.mic = false) ∧ ((flagged s).tbc.seats.get 63).flag.mic = true) ∧
    (let s := day .pending 36000
     s.current = some (0, meeting .pending) ∧ instantOf (meeting .pending).start ≤ s.now ∧ s.now < instantOf (meeting .pending).stop) ∧
    (let s := day .active 39600
     s.current = some (0, meeting .active) ∧ instantOf (meeting .active).stop ≤ s.now ∧
        s.now < s.graceDeadline 0 (meeting .active) s.settings.overrunGrace) ∧
    (let s := day .active 39900
     s.current = some (0, meeting .active) ∧ s.graceDeadline 0 (meeting .active) s.settings.overrunGrace ≤ s.now) ∧
    (let s := { State.reset with msc := { clock := .set, second := 59 } }
     s.msc.clock ≠ .lost ∧ s.msc.second < 86399 ∧ (s.msc.second + 1) % 60 = 0 ∧ s.flc.speakers = []) := by
  refine ⟨by decide +kernel, ⟨rfl, by decide +kernel, by decide +kernel, ?_, by decide +kernel⟩, by decide +kernel⟩
  intro j b hj hb _
  have h : (day .scheduled 35400).bks.bookings.get j = none := by rw [day, Tab.get_upd, if_neg hj, Tab.get_all]
  rw [h] at hb; cases hb

theorem witness_CheckInSources :
    (day .pending 35400).current = some (0, meeting .pending) ∧ (meeting .pending).checkedIn = false ∧ qualifies (meeting .pending) 63 = true ∧
      (day .awaiting 36000).current = some (0, meeting .awaiting) ∧
      qualifies { meeting .pending with plan := ⟨[(1, 2)], none, none⟩ } 63 = false ∧
      ((busAt 63 { flag := ⟨true, false, false, false⟩ }).tbc.seats.get 63).flag.mic = true ∧ (State.reset.tbc.seats.get 63).flag.mic = false := by
  decide +kernel

theorem witness_MeetingsEndAndMove :
    (day .ending 39600).bks.bookings.get 0 = some (meeting .ending) ∧ (day .awaiting 36000).bks.bookings.get 0 = some (meeting .awaiting) ∧
    (let s := day .active 39599
     s.bks.bookings.get 0 = some (meeting .active) ∧ validTime ⟨1, 1320⟩ = true ∧ s.msc.clock = .set ∧
        (meeting .active).start.minutes + 5 ≤ (⟨1, 1320⟩ : DayMinute).minutes ∧
        (⟨1, 1320⟩ : DayMinute).minutes ≤ (meeting .active).start.minutes + 720 ∧ s.now < instantOf ⟨1, 1320⟩ ∧
        s.current = some (0, meeting .active) ∧ LockPolicy.locked ≠ s.settings.lockPolicy) ∧
    (∀ j b, j ≠ 0 → (day .active 39599).bks.bookings.get j = some b → isLive b.state = true →
      overlap { meeting .active with stop := ⟨1, 1320⟩ } b = false) ∧
    (let s := { day .active 0 with msc := { clock := .unset } }
     s.bks.bookings.get 0 = some (meeting .active) ∧ s.msc.clock ≠ .set) ∧
    (⟨[(1, 2)], none, none⟩ : SeatPlan) ≠ {} ∧ (⟨[(1, 2)], none, none⟩ : SeatPlan).lists 1 = true ∧ ({} : SeatPlan).lists 1 = false ∧
    (day .cancelled 0).currentSlot = none ∧ (day .cancelled 0).current = none ∧
    (day .scheduled 0).nextBooking = some (0, meeting .scheduled) := by
  refine ⟨by decide +kernel, by decide +kernel, by decide +kernel, ?_, by decide +kernel, by decide, by decide, by decide, by decide +kernel,
    by decide +kernel, by decide +kernel⟩
  intro j b hj hb _
  have h : (day .active 39599).bks.bookings.get j = none := by
    rw [day, Tab.get_upd, if_neg hj, Tab.get_all]
  rw [h] at hb; cases hb

/-- A booking kept AWAITING over a reset counts its no-show minutes from the start evaluation, also when another booking ends in the
same catch-up (R144, R156, log 15). -/
theorem test_start_evaluation_keeps_the_awaiting :
    let s := day .ending (10 * 3600 + 45 * 60)
    let later : Booking := { meeting .awaiting with start := ⟨1, 630⟩, stop := ⟨1, 690⟩ }
    let b := Tab.upd (Tab.all 32 none) 0 (some { meeting .ending with stop := ⟨1, 630⟩, checkedIn := true })
    let t := State.startEvaluation { s with bks := { bookings := b.upd 1 (some later) } }
    t.bks.bookings.get 1 = some later ∧ (t.bks.bookings.get 0).map (·.state) = some .ended := by decide

/-- A store whose only live booking is SCHEDULED, and the seconds of its day at which a catch-up turns. -/
theorem witness_MeetingsEndAndMove_catchUp :
    let s := day .scheduled 0
    let k := meeting .scheduled
    let at_ := fun second => instant 1 second
    1 ≤ 32767 ∧ 86399 ≤ 86399 ∧ s.pcu.room = .running ∧ s.bks.bookings.get 0 = some k ∧ k.state = .scheduled ∧
      (∀ j b, j ≠ 0 → s.bks.bookings.get j = some b → isLive b.state = false) ∧ instantOf k.start ≤ instantOf k.stop ∧
      at_ 35399 < leadInstant s.settings.preStartLead k ∧ leadInstant s.settings.preStartLead k ≤ at_ 35400 ∧
      at_ 35999 < instantOf k.start ∧ (∀ x, (s.tbc.seats.get x).flag.mic = false) ∧ instantOf k.start ≤ at_ 36000 ∧ at_ 39599 < instantOf k.stop ∧
      instantOf k.stop ≤ at_ 39600 ∧ at_ 39899 < instantOf k.stop + 60 * s.settings.overrunGrace ∧
      instantOf k.stop + 60 * s.settings.overrunGrace ≤ at_ 39900 ∧ ¬ (k.noShow = 0 ∨ k.checkedIn = true) ∧
      ({ k with checkedIn := true } : Booking).checkedIn = true := by
  refine ⟨by decide, by decide, rfl, by decide +kernel, rfl, ?_, by decide +kernel⟩
  intro j b hj hb
  have h : (day .scheduled 0).bks.bookings.get j = none := by rw [day, Tab.get_upd, if_neg hj, Tab.get_all]
  rw [h] at hb; cases hb

theorem witness_SignalsDriveTheLines :
    let c : LineConfig := ⟨.output, false, .high, false, .sessionLamp, .both, false, false⟩
    c.direction = .output ∧ c.released = false ∧ c.level = .high ∧ ({ blink := some ⟨true, 0⟩ } : Rln).blink = some ⟨true, 0⟩ := by decide

theorem witness_LinesAreSampledAndSet :
    (let s := { room table with
        settings := { Settings.factory with
          line := Tab.upd (Tab.all 8 { LineConfig.factory with notice := true, edges := .rise }) 0 { LineConfig.factory with direction := .output } }
        rln :=
          { lines := Tab.gen fun l => { settled := some .low, run := if l = 7 then some (.high, 2) else if l = 6 then some (.high, 1) else none } } }
     (s.settings.line.get 0).direction = .output ∧ (s.settings.line.get 7).direction = .input ∧ (s.settings.line.get 6).direction = .input ∧
        (s.rln.lines.get 5).settled = some .low ∧ (s.rln.lines.get 6).settled = some .low ∧ (s.rln.lines.get 6).run = some (.high, 1) ∧ 1 < 2 ∧
        (s.rln.lines.get 7).settled = some .low ∧ PinLevel.low ≠ .high ∧ (s.rln.lines.get 7).run = some (.high, 2) ∧
        (s.settings.line.get 7).notice = true ∧ includesEdge (s.settings.line.get 7).edges .rise = true) ∧
    (let s := { room table with
        settings := { Settings.factory with
          line := Tab.gen fun l => { LineConfig.factory with
            wake := l = 7, fn := if l = 7 then .occupancy else if l = 6 then .muteSwitch else if l = 5 then .supplyWarn else .general } }
        rln :=
          { lines := Tab.gen fun l => { settled := if l = 6 then none else some .low, run := some (.high, 2) }
            power := some .sleep, supplyTold := some true } }
     (s.rln.lines.get 6).settled = none ∧ (s.rln.lines.get 6).run = some (.high, 2) ∧
        includesEdge (s.settings.line.get 7).edges .rise = true ∧ (s.settings.line.get 7).fn = .occupancy ∧
        (s.settings.line.get 7).wake = true ∧ (s.rln.lines.get 7).suppressed = false ∧ s.rln.power = some .sleep ∧
        (s.settings.line.get 6).fn = .muteSwitch ∧ (s.settings.line.get 5).fn = .supplyWarn ∧
        (let t := out (exec (.lineSample (Tab.all 8 .high)) s)
         s.rln.muteTold = none ∧ t.rln.muteTold = some true ∧ s.rln.supplyTold = some true ∧ t.rln.supplyTold = some false)) ∧
    (∀ k, (Settings.factory.line.get k).wake = false) ∧ .wakeRequest .line ∉ State.reset.flight ∧
    editedLine { direction := some (some .output), fn := some (some .chime) } LineConfig.factory =
      some { LineConfig.factory with direction := .output, fn := .chime } ∧
    ({ LineConfig.factory with direction := .output, fn := .chime } : LineConfig).fits = true ∧
    editedLine { fn := some (some .chime) } LineConfig.factory = some { LineConfig.factory with fn := .chime } ∧
    ({ LineConfig.factory with fn := .chime } : LineConfig).fits = false := by decide +kernel

theorem witness_PowerStateMoves :
    (let s := { power .full none with pcu := { (power .full none).pcu with idle := some 0 } }
     s.pcu.idle ≠ none ∧ s.pcu.sleep = none ∧ s.pcu.power = some .full) ∧
    (let s := { power .quiet none with pcu := { (power .quiet none).pcu with sleep := some 0 } }
     s.pcu.sleep ≠ none ∧ s.pcu.idle = none ∧ s.pcu.power = some .quiet) ∧
    (power .sleep none).pcu.power = some .sleep ∧
    (let s := power .waking (some .powerSettle)
     s.pcu.power = some .waking ∧ s.pcu.phase = some .powerSettle ∧ s.pcu.audio = .running) ∧
    (power .waking (some .enumeration)).pcu.phase = some .enumeration ∧
    (let s := { power .waking (some .pollPass) with
        tbc := { power := some .waking, phase := some .pollPass, passRight := true, nextLeft := 31 } }
     s.polls = true ∧ s.pcu.phase = some .pollPass ∧ s.tbc.phase = some .pollPass ∧ s.tbc.passRight = true ∧ s.tbc.nextLeft = 31) := by
  decide +kernel

theorem witness_CrystalsAndFacts :
    State.reset.pcu.room = .running ∧ State.reset.msc.clock ≠ .lost ∧ State.reset.pcu.audio ≠ .stopped ∧ State.reset.pcu.audio ≠ .running ∧
      State.reset.pcu.power ≠ some .sleep ∧ (power .quiet none).pcu.power = some .quiet ∧ (power .full none).pcu.unused = true ∧
      (power .full none).settings.idleTime ≠ 0 ∧ ({ power := some .full, floorEmpty := false } : Pcu).unused = false := by decide +kernel

theorem witness_BlocksTakeThePowerState :
    let s := { room table with vdt := { power := some .full
                                        seats := Tab.upd (Tab.all 64 {}) 63 { online := true, floorEligible := true, state := .voice } } }
    (s.vdt.seats.get 63).eligible s.vdt.power = true := by decide +kernel

theorem witness_PowerCommands :
    ((day .scheduled 0).pcu.power = some .full ∧ (day .scheduled 0).meetingRuns = false) ∧
      ((day .awaiting 0).pcu.power = some .full ∧ (day .awaiting 0).meetingRuns = true) ∧
      ((power .quiet none).pcu.power = some .quiet ∧ (power .quiet none).meetingRuns = false) ∧
      (power .sleep none).pcu.power = some .sleep ∧ (power .waking none).pcu.power = some .waking := by decide +kernel

theorem witness_CommandsWaitForFull :
    (power .quiet none).pcu.power ≠ some .full ∧ (power .waking none).pcu.power ≠ some .full ∧ State.reset.pcu.power ≠ some .full := by
  decide +kernel

theorem witness_ResetStartsThePart : ResetDetectors.powerAndSupply ≠ .pin ∧ foundBooking cutShort 5 = none ∧
    foundBooking cutShort 3 = some { meeting .ended with organiser := some 10 } ∧ isLive (meeting .ended).state = false ∧
    tornAtReset cutShort (.booking 5) = true ∧ tornAtReset cutShort .settings = false := by decide +kernel

theorem witness_RecordsReachThePorts :
    (let full : PortState := { subs := [.authority, .clock], events := List.replicate 32 ⟨true, false, 1, 0, 0, []⟩ }
     let s := port full
     NoticeKind.floor ∉ (s.port 0).subs ∧ NoticeKind.clock ∈ (s.port 0).subs ∧ 32 ≤ (s.port 0).places) ∧
    (let s := port { events := List.replicate 31 ⟨true, false, 1, 0, 0, []⟩ }
     NoticeKind.authority ∈ (s.port 0).subs ∧ (s.port 0).places < 32) ∧
    (let h : InHand := ⟨0, 0x0A02, 5, none, false⟩
     let s := port { inHand := [h] }
     (s.port ref.port).inHand.find? (fun g => g.tag = ref.tag) = some h ∧ ∀ g ∈ (s.port 2).inHand, g.tag ≠ 0) ∧
    (List.replicate 1024 (0 : Byte)).length ≤ 1024 := by decide +kernel

theorem witness_FramesAreAnswered :
    (⟨[], .beforeAnswer⟩ : Frame).close = .beforeAnswer ∧
    (let f := postFrame 0x0A02 5 [1, 0, 10]
     let c : CommandRecord := ⟨0x0A02, 5, [1, 0, 10]⟩
     let s := port { inHand := List.replicate 8 ⟨9, 1, 0, none, false⟩ }
     s.pcu.power ≠ none ∧ f.close = .whole ∧ (checkedBody f.request).bind postRecord = some c ∧ (s.port 0).isFull = true ∧
        (s.port 1).isFull = false ∧ s.pcu.power = some .full ∧
        (match commandOf c.code with
          | some k => k.authority = none && k.row ⟨1, s.cph.nextTag⟩ c.params = some (.claim ⟨1, 0⟩ (some [.floor]) (some 10))
          | none => false) = true) ∧
    (let s := port { events := [⟨true, false, 1, 0, 0, []⟩] }
     s.pcu.power ≠ none ∧ isShortFrame 2 (frameOf [2]).request = true ∧ (s.port 0).events = ⟨true, false, 1, 0, 0, []⟩ :: []) ∧
    isShortFrame 3 (frameOf [3]).request = true ∧ isShortFrame 3 (frameOf [2]).request = false ∧
    (checkedBody (frameOf [1, 0]).request).bind postRecord = none ∧
    ((checkedBody (postFrame 0xFFFF 5 []).request).bind postRecord = some ⟨0xFFFF, 5, []⟩ ∧ commandOf 0xFFFF = none ∧
      ((power .full none).port 0).isFull = false) ∧
    (let s := power .quiet none
     let c : CommandRecord := ⟨0x0301, 5, [0, 0]⟩
     s.pcu.power ≠ none ∧ s.pcu.power ≠ some .full ∧ (checkedBody (postFrame 0x0301 5 [0, 0]).request).bind postRecord = some c ∧
        s.cph.holder.get .mix ≠ some 0 ∧ ({ s.cph.holder with mix := some 0 } : AuthorityTable).get .mix = some 0 ∧
        (match commandOf c.code with
          | some k => k.authority = some .mix && k.needsFull && k.row ⟨0, s.cph.nextTag⟩ c.params = some (.setMaster ⟨0, 0⟩ (some 0))
          | none => false) = true) := by decide +kernel

theorem witness_AuthorityIsHeldByPorts :
    (Authority.room ∈ [Authority.floor, .room] ∧ [Authority.floor, .room] ≠ [] ∧ 1 ≤ (60 : Int) ∧ (60 : Int) ≤ 60 ∧ ¬ ((61 : Int) ≤ 60) ∧ ¬ (1 ≤ (0 : Int)) ∧
      State.reset.cph.holder.get .room = none ∧ authoritiesOf State.reset 0 = []) ∧
    (let held := { State.reset with cph := { holder := { room := some 2 } } }
     authoritiesOf (out (exec (.claim ref (some [.room]) (some 10)) held)) 0 = [] ∧
        authoritiesOf (out (exec (.claim ref (some [.floor, .room]) (some 10)) held)) 0 = [.floor] ∧
        authoritiesOf (out (exec (.release ⟨2, 0⟩ (some [.mix])) held)) 2 = [.room]) ∧
    (let s := { port { token := some .a, timer := some 0 } with
        cph := { (port { token := some .a, timer := some 0 }).cph with holder := { floor := some 0 } } }
     s.cph.holder.get .floor = some ref.port ∧ (s.port ref.port).token ≠ some .b ∧ (s.port ref.port).token = some .a ∧
        (s.port ref.port).timer ≠ none ∧ (s.port 2).timer = none) := by decide +kernel

/-- A floor with speakers under an override and a queue, in a step that opens the head. -/
theorem witness_StepsKeepTheFloorSound :
    let s := { room { table with limit := 2, speakers := [speaker 0], overrides := [0], queue := [waiter 63] } with
      pending := [.keyEvent 0 .next .press .toggle] }
    FloorSound s.flc ∧ goesOn (step s) = true ∧ (out (step s)).flc.speakers.length = 2 :=
  ⟨⟨by decide +kernel, by decide +kernel, by decide +kernel, by decide +kernel, by decide +kernel, by decide +kernel, by decide +kernel,
    by decide +kernel, by decide +kernel⟩, by decide +kernel, by decide +kernel⟩

/-- A share list with a shown and a waiting entry, in a step that withdraws the shown one and places the other. -/
theorem witness_StepsKeepTheSharesSound :
    let s := { screens { shares := [shown 1 1 .front0, ⟨2, 2, .waiting, false⟩], points := Tab.all 16 { signal := true } } with
      pending := [.shareKeyEvent 1] }
    SharesSound s.scr ∧ SlotsInForce s ∧ PageSound s.scr ∧ goesOn (step s) = true ∧ (out (step s)).scr.shares.map (·.state) = [.shown .front0] := by
  refine ⟨⟨by decide +kernel, by decide +kernel⟩, ?_, ⟨nofun, nofun, fun _ _ => rfl⟩, by decide +kernel, by decide +kernel⟩
  intro e he k hk
  simp only [screens, List.mem_cons, List.not_mem_nil, or_false] at he
  rcases he with rfl | rfl
  · cases Option.some.inj hk; decide
  · cases hk

/-- A gain at the end of its range and a clock at the end of its days, in the step of a second. -/
theorem witness_StepsKeepTheRanges :
    let s := { bus { presence := .offline } with
      mix := { power := some .full, seats := Tab.all 64 { target := .code 24, applied := .code (-160) } }
      msc := { clock := .set, day := 32767, second := 86399 }, pending := [.secondEvent] }
    GainsInRange s ∧ ClockInRange s ∧ MarksClearUnlessOnline s ∧ goesOn (step s) = true := by
  refine ⟨?_, ⟨by decide, by decide⟩, ?_, by decide +kernel⟩
  · intro x; simp [gainInRange]
  · unfold MarksClearUnlessOnline; decide +kernel

/-- A port with 31 places taken and a queue behind a write, in a step that hands over a command. -/
theorem witness_StepsKeepTheQueues :
    let s := { port { events := List.replicate 31 ⟨true, false, 1, 0, 0, []⟩ } with
      bks := { queue := [.booking 31, .settings], writing := some ⟨.participant 95, .participant none, false⟩ }
      pending := [.post 0 (postFrame 0x0A02 5 [1, 0, 10])] }
    PortsInBounds s ∧ StoreQueueSound s ∧ goesOn (step s) = true ∧ ((out (step s)).port 0).places = 32 := by
  refine ⟨?_, ⟨by decide +kernel, by decide +kernel⟩, by decide +kernel, by decide +kernel⟩
  unfold PortsInBounds; decide +kernel

end Sys2Proof.Tests
end

section
/-! PROOF. The ring states of a floor change (R36): one rule per line of R36's table, and the obligation read off from them. -/

namespace Sys2Proof.Machine

open Sys2Proof

/-- Line 1 of R36's table holds for a seat. -/
abbrev Flc.RingMuted (f : Flc) (x : Seat) : Prop :=
  f.muteSwitch = true ∨ ((f.seats.get x).selfMuted = true ∧ (f.seats.get x).enabled = true)

/-- What makes a speaker's ring LIVE-WARN in line 3 of R36's table. -/
abbrev SpeakerEntry.RingWarns (lead : Nat) (e : SpeakerEntry) : Prop :=
  e.overtime = true ∨ (lead ≠ 0 ∧ ∃ n, e.remaining = some n ∧ n ≤ lead)

theorem warned_or_overtime_iff (lead : Nat) (e : SpeakerEntry) :
    (e.warned lead || e.overtime) = true ↔ e.RingWarns lead := by
  unfold SpeakerEntry.warned
  cases h : e.remaining <;> simp [SpeakerEntry.RingWarns, h, or_comm]

section
variable {lead : Nat} {f : Flc} {x : Seat}

theorem deriveRing_of_muted (m : f.RingMuted x) : f.deriveRing lead x = .muted := by
  simp [Flc.deriveRing, m]

theorem deriveRing_of_flash (m : ¬ f.RingMuted x) (h : (f.seats.get x).flash ≠ none) : f.deriveRing lead x = .refused := by
  simp [Flc.deriveRing, m, Option.isSome_iff_ne_none, h]

theorem deriveRing_of_speaks {e : SpeakerEntry} (m : ¬ f.RingMuted x) (h : (f.seats.get x).flash = none)
    (k : f.speakers.find? (fun d => d.seat = x) = some e) :
    (e.RingWarns lead → f.deriveRing lead x = .liveWarn) ∧ (¬ e.RingWarns lead → f.deriveRing lead x = .live) := by
  have stage : f.deriveRing lead x = if e.warned lead || e.overtime then .liveWarn else .live := by
    simp [Flc.deriveRing, m, h, k]
  rw [stage, ← warned_or_overtime_iff]
  exact ⟨fun w => if_pos w, fun w => if_neg w⟩

/-- A seat that does not speak shows its place in the queue. -/
theorem deriveRing_of_not_speaks (m : ¬ f.RingMuted x) (h : (f.seats.get x).flash = none) (k : f.speaks x = false) :
    f.deriveRing lead x =
      if f.queue.head?.map (·.seat) = some x then .head else if f.waits x = true then .queued else .off := by
  have absent : f.speakers.find? (fun d => d.seat = x) = none := by
    simpa [Flc.speaks] using k
  simp [Flc.deriveRing, m, h, absent]

end

theorem head_ne_of_not_waits {f : Flc} {x : Seat} (w : f.waits x = false) : f.queue.head?.map (·.seat) ≠ some x := by
  cases h : f.queue <;> simp_all [Flc.waits]

/-- The rings of a floor change are derived from the floor it leaves, with the warning lead in force. -/
theorem floorChange_ring (cause : FloorCause) (s0 s1 : State) (x : Seat) :
    ((State.floorChange cause s0 s1).flc.seats.get x).ring =
      (State.floorChange cause s0 s1).flc.deriveRing (State.floorChange cause s0 s1).settings.warningLead x :=
  (floorChange_settled cause s0 s1).rings x

/-- A changed ring is among the results of the floor change (R37, the Table Bus Controller's line). -/
theorem ringChange_mem_floorChange (cause : FloorCause) (s0 s1 : State) (x : Seat)
    (h : ((State.floorChange cause s0 s1).flc.seats.get x).ring ≠ (s0.flc.seats.get x).ring) :
    .ringChange x ∈ (State.floorChange cause s0 s1).flight := by
  obtain ⟨out, sent, told⟩ := floorChange_sends cause s0 s1
  rw [sent]
  exact List.mem_append_right _ ((told (.ringChange x)).mpr h.symm)

/-- Settles O21: the ring of a settled floor is the derived one, and R36's table is its derivation line by line. -/
theorem ringsFollowTheTable : Obligations.RingsFollowTheTable := by
  intro cause s0 s1 x
  dsimp only
  have changed := ringChange_mem_floorChange cause s0 s1 x
  have ring := floorChange_ring cause s0 s1 x
  generalize State.floorChange cause s0 s1 = t at *
  rw [ring]
  refine ⟨deriveRing_of_muted, deriveRing_of_flash, fun unmuted flash e speaks => deriveRing_of_speaks unmuted flash speaks,
    fun unmuted flash silent => ?_, ring ▸ changed⟩
  rw [deriveRing_of_not_speaks unmuted flash silent]
  refine ⟨?_, ?_, ?_⟩
  · intro q rest queue isHead
    simp [queue, isHead]
  · intro q rest queue notHead waits
    simp [queue, notHead, waits]
  · intro idle
    rw [if_neg (head_ne_of_not_waits idle), idle]
    rfl

end Sys2Proof.Machine
end

section
/-! PROOF. The ramp tick (R63): one rule of `rampStep` per case of R63's step, what a tick does to the state, and the obligation read off
from them. -/

namespace Sys2Proof.Machine

open Sys2Proof

/-! ## One step of an applied code -/

@[simp] theorem rampStep_self (g : Gain) : rampStep g g = g := by
  cases g <;> simp [rampStep]

/-- From MUTE a code enters 20 below its target, and not below −160. -/
theorem rampStep_mute_code (n : Int) : rampStep .mute (.code n) = .code (max (-160) (n - 20)) := by
  simp only [rampStep, Gain.code.injEq]
  omega

/-- Toward MUTE a code falls by 8 while it stays in range. -/
theorem rampStep_code_mute (a : Int) : rampStep (.code a) .mute = if -160 ≤ a - 8 then .code (a - 8) else .mute := by
  simp only [rampStep, ← not_le, ite_not]

/-- A rise of a code is by 2, or by what is left. -/
theorem rampStep_rise {a n : Int} (below : a < n) : rampStep (.code a) (.code n) = .code (min n (a + 2)) := by
  rw [rampStep, if_neg below.ne, if_pos below]
  split <;> rw [Gain.code.injEq] <;> omega

/-- A fall of a code is by 8, or by what is left. -/
theorem rampStep_fall {a n : Int} (above : n < a) : rampStep (.code a) (.code n) = .code (max n (a - 8)) := by
  rw [rampStep, if_neg above.ne', if_neg above.not_gt]
  split <;> rw [Gain.code.injEq] <;> omega

theorem gainInRange_rampStep {applied target : Gain} (targetOk : gainInRange target) (appliedOk : gainInRange applied) :
    gainInRange (rampStep applied target) := by
  match applied, target with
  | .mute, .mute => exact targetOk
  | .mute, .code n =>
    simp only [rampStep_mute_code, gainInRange] at *
    omega
  | .code a, .mute =>
    rw [rampStep_code_mute]
    split <;> simp only [gainInRange] at *
    omega
  | .code a, .code n =>
    obtain below | rfl | above := lt_trichotomy a n
    · simp only [rampStep_rise below, gainInRange] at *
      omega
    · rwa [rampStep_self]
    · simp only [rampStep_fall above, gainInRange] at *
      omega

/-! ## The tick -/

/-- No tick is taken while the engine does not run (R73). -/
theorem exec_rampTick_of_not_engineRuns {s : State} (silent : s.engineRuns = false) : exec .rampTick s = .next s := by
  change execRampTick s = .next s
  simp [execRampTick, silent]

theorem exec_rampTick_of_engineRuns {s : State} (runs : s.engineRuns = true) :
    exec .rampTick s = .next { s with mix := s.mix.ramped s.settings } := by
  change execRampTick s = _
  simp [execRampTick, runs]

@[simp] theorem Mix.ramped_seat (st : Settings) (m : Mix) (x : Seat) :
    (m.ramped st).seats.get x = (m.seats.get x).ramped (m.levelCode st x) :=
  Tab.get_gen _ x

@[simp] theorem MixSeat.ramped_applied (level : Int) (t : MixSeat) : (t.ramped level).applied = rampStep t.applied t.target := rfl

/-- Settles O25: a tick takes `rampStep` at every seat, and each clause is the rule of one of its cases. -/
theorem rampTickMovesEveryCode : Obligations.RampTickMovesEveryCode := by
  intro s
  refine ⟨exec_rampTick_of_not_engineRuns, fun runs => ⟨_, exec_rampTick_of_engineRuns runs, rfl, rfl, rfl, rfl, fun x => ?_⟩⟩
  simp only [Mix.ramped_seat, MixSeat.ramped_applied]
  refine ⟨rfl, rfl, rfl, ?reached, ?enters, ?mutes, ?rises, ?falls, gainInRange_rampStep⟩
  case reached => intro reached; rw [reached, rampStep_self]
  case enters => intro n muted target; rw [muted, target, rampStep_mute_code]
  case mutes => intro a applied target; rw [applied, target, rampStep_code_mute]
  case rises => intro a n applied target below; rw [applied, target, rampStep_rise below]
  case falls => intro a n applied target above; rw [applied, target, rampStep_fall above]

end Sys2Proof.Machine
end

section
/-! PROOF. The time shown with SPEAKING (R108): one rule of `speakTime` per line of R108's table, and the obligation read off from them. -/

namespace Sys2Proof.Machine

open Sys2Proof

@[simp] theorem speakTime_none (lead : Nat) (late : Bool) : speakTime lead none late = .noTime := rfl

@[simp] theorem speakTime_overtime (lead r : Nat) : speakTime lead (some r) true = .over := rfl

theorem speakTime_of_withinLead {lead r : Nat} (warns : lead ≠ 0) (within : r ≤ lead) :
    speakTime lead (some r) false = .seconds ((r + 9) / 10 * 10) :=
  if_pos ⟨warns, within⟩

theorem speakTime_of_outsideLead {lead r : Nat} (outside : lead = 0 ∨ lead < r) :
    speakTime lead (some r) false = .minutes ((r + 59) / 60) :=
  if_neg (by omega)

/-- Settles O38: each clause is a line of R108's table, and the last two bound its rounding up. -/
theorem speakingTimeIsRoundedUp : Obligations.SpeakingTimeIsRoundedUp := by
  intro lead r late
  refine ⟨speakTime_none lead late, speakTime_overtime lead r, fun warns within => ?seconds, fun outside => ?minutes⟩
  case seconds => exact ⟨_, speakTime_of_withinLead warns within, Nat.mul_mod_left _ 10, by omega, by omega⟩
  case minutes => exact ⟨_, speakTime_of_outsideLead outside, by omega, by omega⟩

end Sys2Proof.Machine
end

section
/-! PROOF. What the scheduler's doings can reach, said once for every operation of chapter 7: the clock stands, the store changes by
bookings alone and keeps its write queue sound, the table bus loses key flags and nothing else, and reports are only added. -/

namespace Sys2Proof.Machine

open Sys2Proof

/-- What the scheduler's operations can make of a state. -/
structure Scheduled (s t : State) : Prop where
  frame : ScheduleFrame s t
  clock : t.msc.clock = s.msc.clock ∧ t.msc.day = s.msc.day ∧ t.msc.second = s.msc.second
  store : t.bks = { s.bks with bookings := t.bks.bookings, queue := t.bks.queue, writing := t.bks.writing }
  sound : s.bks.QueueSound → t.bks.QueueSound
  bus : t.tbc = { s.tbc with seats := t.tbc.seats }
  seats : ∀ x, t.tbc.seats.get x = { s.tbc.seats.get x with flag := (t.tbc.seats.get x).flag }
  flight : s.flight <+: t.flight

theorem Scheduled.refl (s : State) : Scheduled s s :=
  ⟨rfl, ⟨rfl, rfl, rfl⟩, rfl, id, rfl, fun _ => rfl, List.prefix_refl _⟩

theorem Scheduled.trans {s t u : State} (h : Scheduled s t) (k : Scheduled t u) : Scheduled s u where
  frame := by
    have a := h.frame
    have b := k.frame
    unfold ScheduleFrame at *
    rw [b, a]
  clock := ⟨k.clock.1.trans h.clock.1, k.clock.2.1.trans h.clock.2.1, k.clock.2.2.trans h.clock.2.2⟩
  store := by rw [k.store, h.store]
  sound := k.sound ∘ h.sound
  bus := by rw [k.bus, h.bus]
  seats x := by rw [k.seats x, h.seats x]
  flight := h.flight.trans k.flight

/-! ## The operations the others are made of -/

theorem scheduled_emit (s : State) (l : List Instr) : Scheduled s (s.emit l) :=
  ⟨rfl, ⟨rfl, rfl, rfl⟩, rfl, id, rfl, fun _ => rfl, ⟨l, rfl⟩⟩

theorem scheduled_remember (s : State) (since grace : Option Nat) : Scheduled s (s.remember since grace) :=
  ⟨rfl, ⟨rfl, rfl, rfl⟩, rfl, id, rfl, fun _ => rfl, List.prefix_refl _⟩

theorem scheduled_agendaSent (s : State) (a : Agenda) : Scheduled s { s with msc := { s.msc with agendaSent := a } } :=
  ⟨rfl, ⟨rfl, rfl, rfl⟩, rfl, id, rfl, fun _ => rfl, List.prefix_refl _⟩

theorem setBooking_eq (i : BSlot) (v : Option Booking) (b : Bks) : b.setBooking i v =
    { b with
      bookings := (b.setBooking i v).bookings, queue := (b.setBooking i v).queue, writing := (b.setBooking i v).writing } := by
  unfold Bks.setBooking
  split
  · rfl
  · rw [change_eq]

theorem scheduled_setBooking (s : State) (i : BSlot) (v : Option Booking) : Scheduled s (s.setBooking i v) :=
  ⟨rfl, ⟨rfl, rfl, rfl⟩, setBooking_eq i v s.bks, setBooking_sound, rfl, fun _ => rfl, List.prefix_refl _⟩

theorem scheduled_clearKeyFlags (s : State) (p : Seat → Bool) (keys : List Key) : Scheduled s (s.clearKeyFlags p keys) := by
  refine ⟨rfl, ⟨rfl, rfl, rfl⟩, rfl, id, rfl, fun x => ?_, List.prefix_refl _⟩
  simp only [State.clearKeyFlags, Tbc.clearFlags, Tab.get_gen]
  split <;> rfl

section
variable {s t : State}

theorem Scheduled.emit (h : Scheduled s t) (l : List Instr) : Scheduled s (t.emit l) := h.trans (scheduled_emit t l)

theorem Scheduled.ite {u : State} {c : Prop} [Decidable c] (h : c → Scheduled s t) (k : ¬c → Scheduled s u) :
    Scheduled s (if c then t else u) := by
  split
  · exact h ‹_›
  · exact k ‹_›

/-! ## The agenda, transitions and check-in -/

theorem Scheduled.sendAgenda (h : Scheduled s t) : Scheduled s t.sendAgenda :=
  (h.trans (scheduled_agendaSent t t.agenda)).emit _

theorem Scheduled.refreshAgenda (h : Scheduled s t) : Scheduled s t.refreshAgenda := .ite (fun _ => h) fun _ => h.sendAgenda

theorem Scheduled.agendaAfterEdit (h : Scheduled s t) (i : BSlot) (b : Bool) : Scheduled s (t.agendaAfterEdit i b) :=
  .ite (fun _ => h.sendAgenda) fun _ => h.refreshAgenda

theorem Scheduled.tellActivation (h : Scheduled s t) (e : Bool) : Scheduled s (t.tellActivation e) :=
  (h.trans (scheduled_agendaSent t t.agenda)).emit _

theorem Scheduled.remember (h : Scheduled s t) (since grace : Option Nat) : Scheduled s (t.remember since grace) :=
  h.trans (scheduled_remember t since grace)

theorem Scheduled.transition (h : Scheduled s t) (i : BSlot) (k : Booking) (new : BState) (edit : Booking → Booking) :
    Scheduled s (t.transition i k new edit) := (h.trans (scheduled_setBooking t i _)).emit _

theorem Scheduled.clearKeyFlags (h : Scheduled s t) (p : Seat → Bool) (keys : List Key) : Scheduled s (t.clearKeyFlags p keys) :=
  h.trans (scheduled_clearKeyFlags t p keys)

theorem Scheduled.activationEffects (h : Scheduled s t) (k : Booking) : Scheduled s (t.activationEffects k) :=
  ((h.emit _).tellActivation false).emit _

theorem Scheduled.activate (h : Scheduled s t) (i : BSlot) (k : Booking) (edit : Booking → Booking) :
    Scheduled s (t.activate i k edit) := ((h.remember none none).transition i k .active edit).activationEffects (edit k)

theorem Scheduled.endingEffects (h : Scheduled s t) : Scheduled s t.endingEffects :=
  (((h.clearKeyFlags (fun _ => true) [.mic]).emit _).tellActivation true).emit _

theorem Scheduled.endBooking (h : Scheduled s t) (i : BSlot) (k : Booking) (new : BState) : Scheduled s (t.endBooking i k new) :=
  ((Scheduled.ite (fun _ => h.remember none none) fun _ => h).transition i k new id).endingEffects

theorem Scheduled.checkInNow (h : Scheduled s t) (i : BSlot) (k : Booking) : Scheduled s (t.checkInNow i k) := by
  unfold State.checkInNow
  split
  · exact .ite (fun _ => h) fun _ => (h.trans (scheduled_setBooking t i _)).emit _
  · exact h.activate i k _
  · exact h

theorem Scheduled.keyFlagCheck (h : Scheduled s t) (i : BSlot) : Scheduled s (t.keyFlagCheck i) := by
  unfold State.keyFlagCheck
  split
  · exact h
  · exact .ite (fun _ => (h.clearKeyFlags _ _).checkInNow i _) fun _ => h

/-! ## The entries to the states, and the evaluation -/

theorem Scheduled.enterPending (h : Scheduled s t) (i : BSlot) (k : Booking) : Scheduled s (t.enterPending i k) :=
  (((h.remember none none).transition i k .pending id).emit _).refreshAgenda.keyFlagCheck i

theorem Scheduled.enterAwaiting (h : Scheduled s t) (i : BSlot) (k : Booking) : Scheduled s (t.enterAwaiting i k) :=
  (((h.remember _ none).transition i k .awaiting id).emit _).refreshAgenda.keyFlagCheck i

theorem Scheduled.beginBooking (h : Scheduled s t) (i : BSlot) (k : Booking) : Scheduled s (t.beginBooking i k) :=
  .ite (fun _ => (h.emit _).activate i k id) fun _ => h.enterAwaiting i k

theorem Scheduled.enterEnding (h : Scheduled s t) (i : BSlot) (k : Booking) (grace : Nat) : Scheduled s (t.enterEnding i k grace) :=
  ((h.remember none _).transition i k .ending id).refreshAgenda.emit _

theorem scheduled_dueOfCurrent (i : BSlot) (k : Booking) (due : s.dueOfCurrent i k = some t) : Scheduled s t := by
  have refl := Scheduled.refl s
  unfold State.dueOfCurrent at due
  split at due
  · split at due
    · cases due; exact refl.beginBooking i k
    · cases due
  · split at due
    · cases due; exact refl.endBooking i k _
    · cases due
  · split at due
    · split at due
      · cases due; exact refl.enterEnding i k _
      · cases due; exact refl.endBooking i k _
    · cases due
  · split at due
    · cases due; exact refl.endBooking i k _
    · cases due
  · cases due

theorem scheduled_dueOfScheduled (due : s.dueOfScheduled = some t) : Scheduled s t := by
  unfold State.dueOfScheduled at due
  split at due
  · cases due
  · split at due <;> cases due
    · exact (Scheduled.refl s).enterPending _ _
    · exact (Scheduled.refl s).beginBooking _ _

theorem scheduled_dueOnce (due : s.dueOnce = some t) : Scheduled s t := by
  unfold State.dueOnce at due
  split at due
  · exact scheduled_dueOfCurrent _ _ due
  · exact scheduled_dueOfScheduled due

theorem Scheduled.evaluateFor (h : Scheduled s t) (n : Nat) : Scheduled s (evaluateFor n t) := by
  induction n generalizing t with
  | zero => exact h
  | succ n ih =>
    unfold Machine.evaluateFor
    split
    · rename_i u due
      exact ih (h.trans (scheduled_dueOnce due))
    · exact h

theorem Scheduled.evaluate (h : Scheduled s t) : Scheduled s t.evaluate := .ite (fun _ => h.evaluateFor 160) fun _ => h

/-! ## Catch-up and start evaluation -/

theorem Scheduled.catchUpEnding (h : Scheduled s t) (i : BSlot) (k : Booking) : Scheduled s (t.catchUpEnding i k) :=
  Scheduled.emit (Scheduled.refreshAgenda (.ite (fun _ => ((h.remember _ _).transition i k .ending id).emit _)
    fun _ => (((h.remember _ _).transition i k .ending id).emit _).activationEffects k)) _

theorem Scheduled.enterDue (h : Scheduled s t) (i : BSlot) (k : Booking) (due : BState) : Scheduled s (t.enterDue i k due) := by
  cases due with
  | pending => exact h.enterPending i k
  | awaiting => exact h.enterAwaiting i k
  | active => exact (h.emit _).activate i k id
  | ending => exact h.catchUpEnding i k
  | ended => exact h.endBooking i k _
  | released => exact h.endBooking i k _
  | scheduled => exact h
  | cancelled => exact h

theorem Scheduled.catchUpOne (h : Scheduled s t) (start : Bool) (earlier : List BSlot) (i : BSlot) :
    Scheduled s (t.catchUpOne start earlier i) := by
  unfold State.catchUpOne
  split
  · exact h
  · refine .ite (fun _ => h.enterDue i _ _) fun _ => .ite (fun _ => .ite (fun _ => ?_) fun _ => h) fun _ => .ite (fun _ => h) fun _ => h.enterDue i _ _
    exact (h.transition i _ .scheduled id).refreshAgenda

theorem Scheduled.catchUpOver (h : Scheduled s t) (start : Bool) (earlier slots : List BSlot) :
    Scheduled s (catchUpOver start earlier slots t) := by
  induction slots generalizing earlier t with
  | nil => exact h
  | cons i rest ih => exact ih (h.catchUpOne start earlier i) _

theorem Scheduled.recall (h : Scheduled s t) : Scheduled s t.recall := by
  unfold State.recall
  split
  · exact h
  · exact h.remember _ _

theorem Scheduled.catchUp (h : Scheduled s t) (start : Bool) : Scheduled s (t.catchUp start) := by
  have caught : Scheduled s (if start then (Machine.catchUpOver start [] t.liveSlots t).recall else Machine.catchUpOver start [] t.liveSlots t) :=
    .ite (fun _ => (h.catchUpOver start _ _).recall) fun _ => h.catchUpOver start _ _
  exact .ite (fun _ => caught.evaluate) fun _ => caught

theorem Scheduled.cancelOverlaps (h : Scheduled s t) (taken : List Booking) (l : List (BSlot × Booking)) :
    Scheduled s (cancelOverlaps taken l t) := by
  induction l generalizing taken t with
  | nil => exact h
  | cons a l ih =>
    unfold Machine.cancelOverlaps
    exact .ite (fun _ => ih (h.transition _ _ _ _) _) fun _ => ih h _

theorem Scheduled.foldl {α : Type} {f : State → α → State} (step : ∀ u a, Scheduled s u → Scheduled s (f u a)) (l : List α)
    (h : Scheduled s t) : Scheduled s (l.foldl f t) := by
  induction l generalizing t with
  | nil => exact h
  | cons a l ih => exact ih (step t a h)

theorem Scheduled.allScheduled (h : Scheduled s t) : Scheduled s t.allScheduled := by
  refine .foldl (fun u i hu => ?_) _ h
  split
  · exact .ite (fun _ => hu) fun _ => hu.transition _ _ _ _
  · exact hu

theorem Scheduled.takeUpCurrent (h : Scheduled s t) : Scheduled s t.takeUpCurrent := by
  unfold State.takeUpCurrent
  split
  · exact h
  · rename_i i k _
    have taken : Scheduled s (if inMeeting k.state then (t.emit [.bookingCurrentReport true]).activationEffects k
        else t.emit [.bookingCurrentReport true]) := .ite (fun _ => (h.emit _).activationEffects k) fun _ => h.emit _
    exact .ite (fun _ => taken.emit _) fun _ => taken

theorem Scheduled.startEvaluation (h : Scheduled s t) : Scheduled s t.startEvaluation := by
  have first := h.cancelOverlaps [] (t.byStart fun k => isLive k.state)
  have second : Scheduled s (if (Machine.cancelOverlaps [] (t.byStart fun k => isLive k.state) t).msc.clock = .set then
      ((Machine.cancelOverlaps [] (t.byStart fun k => isLive k.state) t).catchUp true).takeUpCurrent
      else (Machine.cancelOverlaps [] (t.byStart fun k => isLive k.state) t).allScheduled) :=
    .ite (fun _ => (first.catchUp true).takeUpCurrent) fun _ => first.allScheduled
  unfold State.startEvaluation State.tellSeating
  exact ((Scheduled.trans (.ite (fun _ => second.emit _) fun _ => second) (scheduled_agendaSent _ _)).emit _).emit _

theorem Scheduled.passEdit (h : Scheduled s t) (st : BState) (old new : SeatPlan) : Scheduled s (t.passEdit st old new) := h.emit _

theorem Scheduled.stepBack (h : Scheduled s t) (i : BSlot) (moved : Bool) : Scheduled s (t.stepBack i moved) := by
  unfold State.stepBack
  split
  · exact h
  · exact .ite (fun _ => (h.transition i _ .scheduled id).emit _) fun _ => h

end

end Sys2Proof.Machine
end

section
/-! PROOF. What each command can change. The state is read in the parts of which the invariants speak; `Instr.touches` names the parts that a
command may change, and `after_kept` proves, command by command, that it changes no other. Every step answers a next state, and the queue
stands, are two readings of it. -/

namespace Sys2Proof.Machine

open Sys2Proof

/-- A part of the state of which an invariant speaks, and the queue of commands. -/
inductive Part
  | queue | gains | time | marks | places | writes | floor | shares | page | slots
  deriving DecidableEq

/-- A part of the state is as it was. -/
def SamePart (s t : State) : Part → Prop
  | .queue => t.pending = s.pending
  | .gains => ∀ x, (t.mix.seats.get x).target = (s.mix.seats.get x).target ∧ (t.mix.seats.get x).applied = (s.mix.seats.get x).applied
  | .time => t.msc.day = s.msc.day ∧ t.msc.second = s.msc.second
  | .marks => ∀ x, (t.tbc.seats.get x).presence = (s.tbc.seats.get x).presence ∧
      (t.tbc.seats.get x).ringMark = (s.tbc.seats.get x).ringMark ∧ (t.tbc.seats.get x).plateMark = (s.tbc.seats.get x).plateMark
  | .places => ∀ p, (t.port p).inHand.length = (s.port p).inHand.length ∧ (t.port p).events.length = (s.port p).events.length
  | .writes => t.bks.queue = s.bks.queue ∧ t.bks.writing = s.bks.writing
  | .floor => (t.flc.speakers = s.flc.speakers ∧ t.flc.queue = s.flc.queue ∧ t.flc.overrides = s.flc.overrides ∧
      t.flc.limit = s.flc.limit) ∧ ∀ x, (t.flc.seats.get x).enabled = (s.flc.seats.get x).enabled ∧
        (t.flc.seats.get x).online = (s.flc.seats.get x).online ∧ (t.flc.seats.get x).role = (s.flc.seats.get x).role
  | .shares => t.scr.shares.map (fun e => (e.point, e.state.slot)) = s.scr.shares.map fun e => (e.point, e.state.slot)
  | .page => t.scr.agenda = s.scr.agenda ∧ t.scr.organiserName = s.scr.organiserName ∧ t.scr.page = s.scr.page
  | .slots => t.settings.layout = s.settings.layout ∧ t.settings.source = s.settings.source

theorem SamePart.refl (s : State) (p : Part) : SamePart s s p := by cases p <;> simp [SamePart]

theorem SamePart.trans {s t u : State} {p : Part} (h : SamePart s t p) (k : SamePart t u p) : SamePart s u p := by
  cases p with
  | queue => exact Eq.trans k h
  | shares => exact Eq.trans k h
  | time => exact ⟨k.1.trans h.1, k.2.trans h.2⟩
  | writes => exact ⟨k.1.trans h.1, k.2.trans h.2⟩
  | slots => exact ⟨k.1.trans h.1, k.2.trans h.2⟩
  | page => exact ⟨k.1.trans h.1, k.2.1.trans h.2.1, k.2.2.trans h.2.2⟩
  | gains => exact fun x => ⟨(k x).1.trans (h x).1, (k x).2.trans (h x).2⟩
  | places => exact fun x => ⟨(k x).1.trans (h x).1, (k x).2.trans (h x).2⟩
  | marks => exact fun x => ⟨(k x).1.trans (h x).1, (k x).2.1.trans (h x).2.1, (k x).2.2.trans (h x).2.2⟩
  | floor =>
    obtain ⟨⟨hs, hq, ho, hl⟩, hx⟩ := h
    obtain ⟨⟨ks, kq, ko, kl⟩, kx⟩ := k
    exact ⟨⟨ks.trans hs, kq.trans hq, ko.trans ho, kl.trans hl⟩,
      fun x => ⟨(kx x).1.trans (hx x).1, (kx x).2.1.trans (hx x).2.1, (kx x).2.2.trans (hx x).2.2⟩⟩

/-- Every part outside `ps` is as it was. -/
def Kept (ps : List Part) (s t : State) : Prop := ∀ p, p ∉ ps → SamePart s t p

theorem Kept.refl (ps : List Part) (s : State) : Kept ps s s := fun p _ => .refl s p

theorem Kept.trans {ps : List Part} {s t u : State} (h : Kept ps s t) (k : Kept ps t u) : Kept ps s u :=
  fun p m => (h p m).trans (k p m)

theorem Kept.mono {ps qs : List Part} {s t : State} (h : Kept ps s t) (sub : ps ⊆ qs) : Kept qs s t := fun p m => h p fun n => m (sub n)

theorem Kept.ite {ps : List Part} {s t u : State} {c : Prop} [Decidable c] (h : c → Kept ps s t) (k : ¬c → Kept ps s u) :
    Kept ps s (if c then t else u) := by
  split
  · exact h ‹_›
  · exact k ‹_›

/-! ## One block changed -/

theorem kept_mix (s : State) (m : Mix) : Kept [.gains] s { s with mix := m } := by
  intro p n
  cases p with
  | gains => exact absurd (.head _) n
  | _ => simp [SamePart, State.port]

theorem kept_tbc (s : State) (b : Tbc) : Kept [.marks] s { s with tbc := b } := by
  intro p n
  cases p with
  | marks => exact absurd (.head _) n
  | _ => simp [SamePart, State.port]

theorem kept_cph (s : State) (c : Cph) : Kept [.places] s { s with cph := c } := by
  intro p n
  cases p with
  | places => exact absurd (.head _) n
  | _ => simp [SamePart]

theorem kept_bks (s : State) (b : Bks) : Kept [.writes] s { s with bks := b } := by
  intro p n
  cases p with
  | writes => exact absurd (.head _) n
  | _ => simp [SamePart, State.port]

theorem kept_flc (s : State) (f : Flc) : Kept [.floor] s { s with flc := f } := by
  intro p n
  cases p with
  | floor => exact absurd (.head _) n
  | _ => simp [SamePart, State.port]

theorem kept_msc (s : State) (m : Msc) : Kept [.time] s { s with msc := m } := by
  intro p n
  cases p with
  | time => exact absurd (.head _) n
  | _ => simp [SamePart, State.port]

theorem kept_scr (s : State) (v : Scr) : Kept [.shares, .page] s { s with scr := v } := by
  intro p n
  cases p with
  | shares => exact absurd (.head _) n
  | page => exact absurd (.tail _ (.head _)) n
  | _ => simp [SamePart, State.port]

theorem kept_page {s : State} {v : Scr} (page : v.agenda = s.scr.agenda ∧ v.organiserName = s.scr.organiserName ∧ v.page = s.scr.page) :
    Kept [.shares] s { s with scr := v } := by
  intro p n
  cases p with
  | shares => exact absurd (.head _) n
  | page => exact page
  | _ => simp [SamePart, State.port]

theorem kept_settings (s : State) (st : Settings) : Kept [.slots] s { s with settings := st } := by
  intro p n
  cases p with
  | slots => exact absurd (.head _) n
  | _ => simp [SamePart, State.port]

/-- Marks and presence stand where the seats of the table bus keep them. -/
theorem kept_of_marks {s : State} {b : Tbc} (h : ∀ x, (b.seats.get x).presence = (s.tbc.seats.get x).presence ∧
    (b.seats.get x).ringMark = (s.tbc.seats.get x).ringMark ∧ (b.seats.get x).plateMark = (s.tbc.seats.get x).plateMark) :
    Kept [] s { s with tbc := b } := by
  intro p n
  cases p with
  | marks => exact h
  | _ => simp [SamePart, State.port]

theorem kept_of_gains {s : State} {m : Mix} (h : ∀ x, (m.seats.get x).target = (s.mix.seats.get x).target ∧
    (m.seats.get x).applied = (s.mix.seats.get x).applied) : Kept [] s { s with mix := m } := by
  intro p n
  cases p with
  | gains => exact h
  | _ => simp [SamePart, State.port]

theorem kept_of_places {s : State} {c : Cph} (h : ∀ p, (c.ports.get p).inHand.length = (s.port p).inHand.length ∧
    (c.ports.get p).events.length = (s.port p).events.length) : Kept [] s { s with cph := c } := by
  intro p n
  cases p with
  | places => exact h
  | _ => simp [SamePart]

/-- A port put back with as many commands and records. -/
theorem kept_putPort {s : State} {p : Port} {v : PortState} (h : v.inHand.length = (s.port p).inHand.length)
    (k : v.events.length = (s.port p).events.length) : Kept [] s (s.putPort p v) := by
  refine kept_of_places (c := { s.cph with ports := s.cph.ports.upd p v }) fun q => ?_
  simp only [Tab.get_upd]
  split
  · rename_i e
    exact e ▸ ⟨h, k⟩
  · exact ⟨rfl, rfl⟩

/-! ## The shared operations -/

section
variable {ps : List Part} {s : State}

theorem kept_emit (s : State) (l : List Instr) : Kept ps s (s.emit l) := .refl ps s

theorem kept_waitForFull (s : State) (r : CmdRef) : Kept ps s (s.waitForFull r) := by
  rw [waitForFull_eq]
  refine Kept.mono (kept_of_places fun q => ?_) (List.nil_subset ps)
  simp only [Tab.get_upd]
  split
  · rename_i e
    simp [e, markWaiting, State.port]
  · exact ⟨rfl, rfl⟩

theorem kept_whenFull (r : CmdRef) {effect : State → State} (h : Kept ps s (effect s)) : Kept ps s (s.whenFull r effect) :=
  .ite (fun _ => h) fun _ => kept_waitForFull s r

theorem kept_setNumber (r : CmdRef) (lo hi : Int) (v : NumArg) (shown : Int → List Byte) {set : Int → State → State}
    (h : ∀ n, Kept ps s (set n s)) : Kept ps s (s.setNumber r lo hi v shown set) := by
  cases v with
  | none => exact .refl ps s
  | some n => exact .ite (fun _ => h n) fun _ => h (clampInt lo hi n)

theorem kept_setVoice (r : CmdRef) (v : NumArg) (bring : Int → Int) {set : Int → Settings → Settings}
    (h : ∀ n, Kept ps s { s with settings := set n s.settings }) : Kept ps s (s.setVoice r v bring set) := by
  cases v with
  | none => exact .refl ps s
  | some n => exact h (bring n)

theorem kept_refreshIdle (s : State) (was : Bool) : Kept ps s (s.refreshIdle was) :=
  .ite (fun _ => .ite (fun _ => .refl ps s) fun _ => .refl ps s) fun _ => .refl ps s

theorem kept_wakeUp (s : State) (cause : PowerCause) : Kept ps s (s.wakeUp cause) := by
  unfold State.wakeUp
  split <;> exact .refl ps s

theorem kept_releaseWaiting (s : State) : Kept ps s s.releaseWaiting := by
  refine (Kept.mono (kept_of_places fun p => ?_) (List.nil_subset ps)).trans (kept_emit _ _)
  simp [PortState.noneWaiting, State.port]

theorem kept_enterFull (s : State) : Kept ps s s.enterFull := (Kept.refl ps s).trans (kept_releaseWaiting (s.setPower .full none .settled).restartIdle)

theorem kept_await (s : State) (r : CmdRef) (waits : List WriteWait) (payload : List Byte) : Kept ps s (s.await r waits payload) :=
  .ite (fun _ => .refl ps s) fun _ => .refl ps s

theorem Scheduled.kept {t : State} (h : Scheduled s t) (m : .writes ∈ ps) : Kept ps s t := by
  intro p n
  have frame := h.frame
  unfold ScheduleFrame at frame
  cases p with
  | time => exact h.clock.2
  | marks => exact fun x => by rw [h.seats x]; exact ⟨rfl, rfl, rfl⟩
  | writes => exact absurd m n
  | _ => rw [frame]; simp [SamePart, State.port]

theorem kept_floorChange (cause : FloorCause) (s0 s1 : State) : Kept [.floor] s1 (State.floorChange cause s0 s1) :=
  kept_flc s1 _

theorem kept_floorEdit (s : State) (cause : FloorCause) (edit : Flc → Flc) : Kept [.floor] s (s.floorEdit cause edit) :=
  (kept_flc s _).trans (kept_floorChange cause s _)

theorem kept_screenChange (cause : ShareCause) (plates : Bool) (s0 s1 : State) :
    Kept [.shares] s1 (State.screenChange cause plates s0 s1) := by
  rw [screenChange_eq]
  have h := screenChange_settled cause plates s0 s1
  exact kept_page ⟨h.agenda, h.organiser, h.page⟩

theorem kept_screenEdit (s : State) (cause : ShareCause) (plates : Bool) {edit : Scr → Scr}
    (page : (edit s.scr).agenda = s.scr.agenda ∧ (edit s.scr).organiserName = s.scr.organiserName ∧ (edit s.scr).page = s.scr.page) :
    Kept [.shares] s (s.screenEdit cause plates edit) := (kept_page page).trans (kept_screenChange cause plates s _)

end

end Sys2Proof.Machine
end

section
/-! PROOF. The parts each command may change, proved command by command. -/

namespace Sys2Proof.Machine

open Sys2Proof

/-- The state a command answers with. -/
def State.after (s : State) (c : Instr) : State :=
  match exec c s with
  | .next t => t
  | _ => s

/-- Every command is answered with a next state. -/
theorem exec_eq_after (c : Instr) (s : State) : exec c s = .next (s.after c) := by
  cases c <;> rfl

theorem after_of_exec {c : Instr} {s t : State} (h : exec c s = .next t) : t = s.after c := by
  rw [exec_eq_after] at h
  exact (Host.Outcome.next.inj h).symm

/-- The parts of the state that a command may change. -/
def touches : Instr → List Part
  | .reset .. => [.gains, .time, .marks, .places, .writes, .floor, .shares, .page, .slots]
  | .poll _ | .acceptedAnswer .. | .missedAnswer _ | .ringChange _ | .nameplateChange _ => [.marks]
  | .rampTick | .floorChangeAtMix _ | .muteSwitchAtMix _ | .setMaster .. | .setTrim .. | .setDuck .. | .setNom .. => [.gains]
  | .secondEvent => [.time, .floor, .writes]
  | .setClock .. => [.time, .writes]
  | .noShowDeadline | .graceDeadline | .storeWriteEnd | .supplyWarningReport _ | .micFlagReport _ | .occupancyEdge .. | .bookingReport _
  | .addBooking .. | .cancelBooking .. | .deleteBooking .. | .editBooking .. | .addParticipant .. | .editParticipant ..
  | .deleteParticipant .. | .saveSettings _ | .checkIn _ | .extend .. | .endNow .. | .setPreStartLead .. => [.writes]
  | .speechTimerExpiry | .refusalFlashExpiry _ | .keyEvent .. | .voiceOnset _ | .voiceEnd _ | .presenceReportAtFlc .. | .muteSwitchAtFlc _
  | .activationReport _ | .endingReport .. | .attendeeEditReport .. | .seatingReport .. | .participantDeletionReport _
  | .grant .. | .grantNext _ | .addRequest .. | .close .. | .closeSpeakers _ | .clearQueue _ | .setFloorMode .. | .setOpenLimit ..
  | .setOverflow .. | .setPriorityPolicy .. | .setSpeechLimit .. | .enableSeat .. | .setRole .. => [.floor]
  | .lossTimerExpiry _ | .floorGraceExpiry _ | .presenceReportAtScr .. | .floorChangeAtScr _ | .speechRemainingReport _
  | .enabledReportAtScr .. | .shareKeyEvent _ | .shareSignalReport .. | .droppedSeatsReport _ | .endingMarkReport _
  | .setCaption .. | .setPresenterPolicy .. | .shareStart .. | .shareStop .. | .approveShare .. | .bindSharePoint .. => [.shares]
  | .activationAtScr .. | .agendaReport _ | .participantEditReport _ => [.shares, .page]
  | .setLayout .. | .setSlot .. => [.shares, .slots]
  | .powerStateReport .. => [.gains, .marks, .floor, .shares]
  | .notice .. | .blockResult .. | .post .. | .fetch .. | .portReset .. => [.places]
  | _ => []

/-- What a command keeps, read off from the state it is seen to answer with. -/
theorem kept_after {ps : List Part} {c : Instr} {s t : State} (h : exec c s = .next t) (k : Kept ps s t) : Kept ps s (s.after c) :=
  after_of_exec h ▸ k

/-! ## The table bus and the audio rates -/

section
variable {ps : List Part} {s : State}

theorem kept_putTbcSeat (m : .marks ∈ ps) (s : State) (x : Seat) (v : TbcSeat) : Kept ps s (s.putTbcSeat x v) :=
  (kept_tbc s _).mono (by simpa using m)

theorem kept_acceptEdge (m : .marks ∈ ps) (s : State) (x : Seat) (k : Key) (e : KeyEdge) : Kept ps s (s.acceptEdge x k e) := by
  have flag : Kept ps s (s.setKeyFlag x k) := .ite (fun _ => kept_putTbcSeat m s x _) fun _ => kept_putTbcSeat m s x _
  have told := Kept.ite (c := qualifying k (s.settings.keyMode.get x) e) (fun _ => flag) fun _ => .refl ps s
  have row : Kept ps s (if qualifying k (s.settings.keyMode.get x) e ∧ s.tbc.power = some .full ∧ (s.tbc.seats.get x).heldEnabled then
      ((if qualifying k (s.settings.keyMode.get x) e then s.setKeyFlag x k else s).emit
        [keyEventRow x k e (s.settings.keyMode.get x)]).restartIdle
      else if qualifying k (s.settings.keyMode.get x) e then s.setKeyFlag x k else s) := .ite (fun _ => told) fun _ => told
  exact .ite (fun _ => row.trans (kept_emit _ _)) fun _ => row

theorem kept_conditionKey (m : .marks ∈ ps) (s : State) (x : Seat) (raw : PerKey KeyLevel) (k : Key) :
    Kept ps s (s.conditionKey x raw k) := by
  unfold State.conditionKey
  refine .ite (fun _ => ?_) fun _ => .refl ps s
  dsimp only
  split
  · exact (kept_putTbcSeat m s x _).trans (kept_acceptEdge m _ x k _)
  · exact kept_putTbcSeat m s x _

theorem Kept.foldl {α : Type} {f : State → α → State} (step : ∀ u a, Kept ps u (f u a)) (l : List α) (s : State) :
    Kept ps s (l.foldl f s) := by
  induction l generalizing s with
  | nil => exact .refl ps s
  | cons a l ih => exact (step s a).trans (ih _)

theorem kept_takeShareSignal (m : .marks ∈ ps) (s : State) (x : Seat) (b : Bool) : Kept ps s (s.takeShareSignal x b) :=
  .ite (fun _ => (kept_putTbcSeat m s x _).trans (kept_emit _ _)) fun _ => kept_putTbcSeat m s x _

theorem kept_accepted (m : .marks ∈ ps) (s : State) (x : Seat) (a : Answer) : Kept ps s (s.accepted x a) := by
  have counted := kept_putTbcSeat m s x { s.tbc.seats.get x with missed := 0 }
  have online : ∀ u : State, Kept ps u (u.seatOnline x a) := fun u => (kept_putTbcSeat m u x _).trans (kept_emit _ _)
  have keys := Kept.ite (c := (s.tbc.seats.get x).presence = .online)
    (fun _ => counted.trans (.foldl (fun u k => kept_conditionKey m u x a.levels k) allKeys _)) fun _ => counted.trans (online _)
  exact (keys.trans (kept_takeShareSignal m _ x a.shareSignal)).trans (kept_putTbcSeat m _ x _)

theorem kept_missed (m : .marks ∈ ps) (s : State) (x : Seat) : Kept ps s (s.missed x) :=
  .ite (fun _ => .ite (fun _ => (kept_putTbcSeat m s x _).trans (kept_emit _ _)) fun _ => kept_putTbcSeat m s x _) fun _ => .refl ps s

theorem kept_withFeeds (s : State) (c : Bool) (feed : Seat → Option Int) : Kept ps s { s with tbc := s.tbc.withFeeds c feed } :=
  (kept_of_marks fun x => by simp [Tbc.withFeeds]).mono (List.nil_subset ps)

theorem kept_silent (s : State) : Kept ps s { s with mix := s.mix.silent } :=
  (kept_of_gains fun x => by simp [Mix.silent]).mono (List.nil_subset ps)

theorem kept_samplePeriod (s : State) (mics : List (Seat × Sample)) (remote : Option Sample) :
    Kept ps s (s.samplePeriod mics remote) := by
  have mix : Kept ps s { s with mix := s.mixPeriod mics remote } := by
    refine (kept_of_gains fun x => ?_).mono (List.nil_subset ps)
    unfold State.mixPeriod
    split
    · simp only [Mix.sampled, Tab.get_gen, MixSeat.fed]
      split <;> exact ⟨rfl, rfl⟩
    · simp [Mix.silent]
  exact mix.trans (kept_withFeeds { s with mix := s.mixPeriod mics remote } _ _)

theorem kept_audioStill (s : State) : Kept ps s s.audioStill := (kept_silent s).trans (kept_withFeeds { s with mix := s.mix.silent } _ _)

theorem millisecond_slots (v : Scr) : v.millisecond.shares.map (fun e => (e.point, e.state.slot)) =
    v.shares.map fun e => (e.point, e.state.slot) := by
  simp only [Scr.millisecond, List.map_map]
  refine List.map_congr_left fun e _ => ?_
  cases h : e.state <;> simp [h, ShareState.slot]

theorem kept_endBlock (s : State) : Kept ps s s.endBlock := by
  refine .ite (fun _ => ?_) fun _ => .refl ps s
  intro p _
  cases p with
  | shares => exact millisecond_slots s.scr
  | _ => simp [SamePart, State.port, State.detectorBlock, Scr.millisecond]

/-! ## Timers of the room crystal -/

theorem kept_tickTimers (s : State) : Kept ps s s.tickTimers := by
  intro p _
  cases p with
  | floor => simp [SamePart, State.tickTimers, FlcSeat.ticked]
  | places => simp [SamePart, State.tickTimers, State.port, PortState.ticked]
  | _ => simp [SamePart, State.tickTimers]

theorem kept_takeEdge (s : State) (l : Line) (e : LineEdge) : Kept ps s (s.takeEdge l e) := .ite (fun _ => .refl ps s) fun _ => .refl ps s

theorem kept_sampleLine (s : State) (l : Line) (level : PinLevel) : Kept ps s (s.sampleLine l level) := by
  unfold State.sampleLine
  split
  · exact .refl ps s
  · dsimp only
    split
    · exact (Kept.refl ps s).trans (kept_takeEdge { s with rln := _ } l _)
    · exact .refl ps s

theorem kept_tellLevels (s : State) : Kept ps s s.tellLevels := .refl ps s

theorem kept_loseClock (s : State) : Kept ps s s.loseClock := .ite (fun _ => .refl ps s) fun _ => .refl ps s

theorem kept_speechSecond (m : .floor ∈ ps) (s : State) : Kept ps s s.speechSecond :=
  .ite (fun _ => (((kept_floorEdit s .secondEvent _).mono (by simpa using m)).trans (kept_emit _ _)).trans (kept_emit _ _))
    fun _ => .refl ps s

theorem kept_secondEvent (s : State) : Kept [.time, .floor, .writes] s (s.after .secondEvent) := by
  have tick : Kept [.time, .floor, .writes] s { s with msc := s.msc.tick } := (kept_msc s _).mono (by simp)
  have speech := tick.trans (kept_speechSecond (by simp) { s with msc := s.msc.tick })
  exact .ite (fun _ => .refl _ s) fun _ => .ite (fun _ => (kept_msc s _).mono (by simp)) fun _ =>
    .ite (fun _ => speech.trans ((Scheduled.refl _).evaluate.kept (by simp))) fun _ => speech

/-! ## The hub -/

theorem kept_freeAuthorities (s : State) (cause : AuthorityCause) (p : Port) (which : Authority → Bool) :
    Kept ps s (s.freeAuthorities cause p which) := by
  have table : Kept ps s { s with cph := { s.cph with holder := s.cph.holder.freed fun a => which a && s.cph.holder.get a = some p } } :=
    (kept_of_places fun _ => ⟨rfl, rfl⟩).mono (List.nil_subset ps)
  exact .ite (fun _ => table) fun _ => table

theorem kept_unclaimed (s : State) (p : Port) : Kept ps s (s.putPort p (s.port p).unclaimed) :=
  (kept_putPort (by rfl) (by rfl)).mono (List.nil_subset ps)

theorem kept_claimFor (s : State) (r : CmdRef) (wanted : List Authority) (given : Int) : Kept ps s (s.claimFor r wanted given) := by
  have table : ∀ h, Kept ps s { s with cph := { s.cph with holder := h } } := fun h =>
    (kept_of_places fun _ => ⟨rfl, rfl⟩).mono (List.nil_subset ps)
  have port : ∀ (h : AuthorityTable) (w : Nat) (b : Bool), Kept ps s
      (({ s with cph := { s.cph with holder := h } } : State).putPort r.port ((s.port r.port).claiming w b)) := fun h w b =>
    (table h).trans ((kept_putPort (s := { s with cph := { s.cph with holder := h } }) (by unfold PortState.claiming; split <;> rfl)
      (by unfold PortState.claiming; split <;> rfl)).mono (List.nil_subset ps))
  unfold State.claimFor
  refine Kept.trans ?_ (kept_emit _ _)
  exact .ite (fun _ => port _ _ _) fun _ => port _ _ _

theorem kept_presenceTimerExpiry (s : State) (p : Port) : Kept ps s (s.after (.presenceTimerExpiry p)) :=
  .ite (fun _ => (kept_unclaimed s p).trans (kept_freeAuthorities _ _ _ _)) fun _ => .refl ps s

theorem kept_subscribe (s : State) (r : CmdRef) (kinds : Option (List NoticeKind)) : Kept [] s (s.after (.subscribe r kinds)) := by
  cases kinds with
  | none => exact .refl _ s
  | some ks => exact (kept_putPort (s := s.taking _) (by rfl) (by rfl)).trans (kept_emit _ _)

theorem kept_claim (s : State) (r : CmdRef) (wanted : Option (List Authority)) (window : NumArg) :
    Kept ps s (s.after (.claim r wanted window)) := by
  obtain _ | _ | ⟨a, as⟩ := wanted
  · exact .refl ps s
  · exact .refl ps s
  · cases window with
    | none => exact .refl ps s
    | some n => exact kept_claimFor (s.taking _) r _ _

theorem kept_release (s : State) (r : CmdRef) (named : Option (List Authority)) : Kept ps s (s.after (.release r named)) := by
  cases named with
  | none => exact .refl ps s
  | some as =>
    have freed : Kept ps s _ := kept_freeAuthorities (s.taking (.release r (some as))) .release r.port fun a => as = [] || as.contains a
    exact freed.trans ((Kept.ite (fun _ => kept_unclaimed _ _) fun _ => .refl _ _).trans (kept_emit _ _))

theorem kept_presence (s : State) (r : CmdRef) (token : Option Token) : Kept [] s (s.after (.presence r token)) := by
  cases token with
  | none => exact .refl _ s
  | some k => exact .ite (fun _ => .refl _ s) fun _ => .ite (fun _ => .refl _ s) fun _ =>
      (kept_putPort (s := s.taking _) (by rfl) (by rfl)).trans (kept_emit _ _)

/-! ## The floor's commands -/

theorem kept_floorOk (s : State) (r : CmdRef) (edit : Flc → Flc) (payload : Flc → List Byte) : Kept [.floor] s (s.floorOk r edit payload) :=
  (kept_floorEdit s .command edit).trans (kept_emit _ _)

/-- A floor setting command leaves the layouts and the sources of the slots alone. -/
theorem kept_floorSet (s : State) (r : CmdRef) {set : Settings → Settings} (edit : Flc → Flc) (result : Result) (payload : List Byte)
    (slots : (set s.settings).layout = s.settings.layout ∧ (set s.settings).source = s.settings.source) :
    Kept [.floor] s (s.floorSet r set edit result payload) := by
  have set : Kept [.floor] s { s with settings := set s.settings, flc := edit s.flc } := by
    intro p n
    cases p with
    | slots => exact slots
    | _ => exact kept_flc s (edit s.flc) _ n
  exact (set.trans (kept_floorChange _ _ _)).trans (kept_emit _ _)

theorem kept_floorCommand (c : Instr) (s : State) (h : touches c = [.floor]) : Kept [.floor] s (s.after c) := by
  cases c with
  | speechTimerExpiry => exact kept_after rfl (kept_floorEdit (s.taking _) _ _)
  | refusalFlashExpiry x => exact kept_after rfl (kept_floorEdit s _ _)
  | keyEvent x k e m =>
    exact kept_after rfl (.ite (fun _ => (kept_floorEdit (s.taking (.keyEvent x k e m)) _ _).trans (kept_emit _ _)) fun _ => .refl _ s)
  | voiceOnset x => exact kept_after rfl (.ite (fun _ => kept_floorEdit (s.taking _) _ _) fun _ => .refl _ s)
  | voiceEnd x => exact kept_after rfl (.ite (fun _ => kept_floorEdit (s.taking _) _ _) fun _ => .refl _ s)
  | presenceReportAtFlc x was now =>
    exact kept_after rfl (.ite (fun _ => (kept_floorEdit (s.taking (.presenceReportAtFlc x was now)) _ _).trans (kept_emit _ _))
      fun _ => kept_floorEdit (s.taking _) _ _)
  | muteSwitchAtFlc b => exact kept_after rfl (kept_floorEdit (s.taking _) _ _)
  | activationReport a => exact kept_after rfl (kept_floorEdit (s.taking _) _ _)
  | endingReport p st => exact kept_after rfl (kept_floorEdit (s.taking _) _ _)
  | attendeeEditReport p st => exact kept_after rfl (kept_floorEdit (s.taking _) _ _)
  | seatingReport st b => exact kept_after rfl (kept_floorEdit (s.taking _) _ _)
  | participantDeletionReport p => exact kept_after rfl (kept_floorEdit (s.taking _) _ _)
  | grant r x =>
    cases x with
    | none => exact kept_after rfl (kept_whenFull (s := s.taking _) r (.refl _ _))
    | some x =>
      exact kept_after rfl (kept_whenFull (s := s.taking _) r (.ite (fun _ => .refl _ _) fun _ => .ite (fun _ => .refl _ _) fun _ =>
        .ite (fun _ => .refl _ _) fun _ => .ite (fun _ => .refl _ _) fun _ => kept_floorOk _ r _ _))
  | grantNext r =>
    refine kept_after rfl (kept_whenFull (s := s.taking _) r ?_)
    split
    · exact .refl _ _
    · exact .ite (fun _ => .refl _ _) fun _ => .ite (fun _ => .refl _ _) fun _ => kept_floorOk _ r _ _
  | addRequest r x =>
    cases x with
    | none => exact kept_after rfl (kept_whenFull (s := s.taking _) r (.refl _ _))
    | some x =>
      exact kept_after rfl (kept_whenFull (s := s.taking _) r (.ite (fun _ => .refl _ _) fun _ => .ite (fun _ => .refl _ _) fun _ =>
        .ite (fun _ => .refl _ _) fun _ => .ite (fun _ => .refl _ _) fun _ => kept_floorOk _ r _ _))
  | close r x =>
    cases x with
    | none => exact kept_after rfl (kept_whenFull (s := s.taking _) r (.refl _ _))
    | some x =>
      exact kept_after rfl (kept_whenFull (s := s.taking _) r (.ite (fun _ => kept_floorOk _ r _ _) fun _ => .ite (fun _ => kept_floorOk _ r _ _)
        fun _ => .refl _ _))
  | closeSpeakers r => exact kept_after rfl (kept_whenFull (s := s.taking _) r (kept_floorOk _ r _ _))
  | clearQueue r => exact kept_after rfl (kept_whenFull (s := s.taking _) r (kept_floorOk _ r _ _))
  | setFloorMode r m sc =>
    refine kept_after rfl (kept_whenFull (s := s.taking _) r ?_)
    split
    · exact kept_floorSet _ r _ _ _ ⟨rfl, rfl⟩
    · exact kept_floorSet _ r _ _ _ ⟨rfl, rfl⟩
    · exact .refl _ _
  | setOpenLimit r n sc =>
    refine kept_after rfl (kept_whenFull (s := s.taking _) r ?_)
    split
    · rename_i n sc
      cases sc <;> exact .ite (fun _ => kept_floorSet _ r _ _ _ ⟨rfl, rfl⟩) fun _ => kept_floorSet _ r _ _ _ ⟨rfl, rfl⟩
    · exact .refl _ _
  | setOverflow r p =>
    cases p with
    | none => exact kept_after rfl (kept_whenFull (s := s.taking _) r (.refl _ _))
    | some p => exact kept_after rfl (kept_whenFull (s := s.taking _) r (kept_floorSet _ r _ _ _ ⟨rfl, rfl⟩))
  | setPriorityPolicy r p =>
    cases p with
    | none => exact kept_after rfl (kept_whenFull (s := s.taking _) r (.refl _ _))
    | some p => exact kept_after rfl (kept_whenFull (s := s.taking _) r (.ite (fun _ => .refl _ _) fun _ => kept_floorSet _ r _ _ _ ⟨rfl, rfl⟩))
  | setSpeechLimit r n l a =>
    refine kept_after rfl (kept_whenFull (s := s.taking _) r ?_)
    split
    · exact .ite (fun _ => kept_floorSet _ r _ _ _ ⟨rfl, rfl⟩) fun _ => kept_floorSet _ r _ _ _ ⟨rfl, rfl⟩
    · exact .refl _ _
  | enableSeat r x b =>
    refine kept_after rfl (kept_whenFull (s := s.taking _) r ?_)
    split
    · exact .ite (fun _ => .refl _ _) fun _ => kept_floorOk _ r _ _
    · exact .ite (fun _ => kept_floorOk _ r _ _) fun _ => .refl _ _
    · exact .refl _ _
  | setRole r x ro p =>
    refine kept_after rfl (kept_whenFull (s := s.taking _) r ?_)
    split
    · exact kept_floorOk _ r _ _
    · exact kept_floorOk _ r _ _
    · exact .ite (fun _ => kept_floorOk _ r _ _) fun _ => .refl _ _
    · exact .refl _ _
  | _ => simp [touches] at h

end

end Sys2Proof.Machine
end

section
/-! PROOF. The parts each command may change, continued: the screens, the engine, the store and the scheduler; and the two readings of it
that are obligations of their own. -/

namespace Sys2Proof.Machine

open Sys2Proof

section
variable {ps : List Part} {s : State}

/-! ## The screens -/

/-- An event's own handling of the Screen Router that leaves the agenda page alone. -/
def KeepsPage (edit : Scr → Scr) : Prop :=
  ∀ v, (edit v).agenda = v.agenda ∧ (edit v).organiserName = v.organiserName ∧ (edit v).page = v.page

theorem keepsPage_drop (gone : ShareEntry → Bool) : KeepsPage (Scr.drop gone) := fun _ => ⟨rfl, rfl, rfl⟩

theorem keepsPage_loseSignal (p : Point) : KeepsPage (Scr.loseSignal p) := fun _ => ⟨rfl, rfl, rfl⟩

theorem keepsPage_takePresence (st : Settings) (x : Seat) (now : Presence) : KeepsPage (Scr.takePresence st x now) := by
  intro v
  unfold Scr.takePresence
  split
  · exact ⟨rfl, rfl, rfl⟩
  · cases pointOf st x <;> exact ⟨rfl, rfl, rfl⟩

theorem keepsPage_takeEnabled (x : Seat) (b : Bool) : KeepsPage (Scr.takeEnabled x b) := by
  intro v
  cases b <;> exact ⟨rfl, rfl, rfl⟩

theorem keepsPage_takeView (st : Settings) (f : FloorView) : KeepsPage (Scr.takeView st f) := by
  intro v
  unfold Scr.takeView Scr.takeFloor
  split <;> exact ⟨rfl, rfl, rfl⟩

theorem keepsPage_toggleShare (st : Settings) (x : Seat) : KeepsPage (Scr.toggleShare st x) := by
  intro v
  unfold Scr.toggleShare
  split
  · exact ⟨rfl, rfl, rfl⟩
  · split
    · exact ⟨rfl, rfl, rfl⟩
    · split <;> exact ⟨rfl, rfl, rfl⟩

theorem keepsPage_takeSignal (st : Settings) (x : Seat) (b : Bool) : KeepsPage (Scr.takeSignal st x b) := by
  intro v
  unfold Scr.takeSignal
  dsimp only
  split <;> exact ⟨rfl, rfl, rfl⟩

theorem keepsPage_takePower (p : Power) : KeepsPage (Scr.takePower p) := by
  intro v
  cases p <;> exact ⟨rfl, rfl, rfl⟩

theorem kept_screenEvent (s : State) (cause : ShareCause) (plates : Bool) {edit : Scr → Scr} (h : KeepsPage edit) :
    Kept [.shares] s (s.screenEdit cause plates edit) := kept_screenEdit s cause plates (h s.scr)

theorem kept_screenReply (s : State) (r : CmdRef) (res : Result) (payload : List Byte) {edit : Scr → Scr} (h : KeepsPage edit) :
    Kept [.shares] s ((s.screenEdit .command false edit).reply r res payload) := (kept_screenEvent s .command false h).trans (kept_emit _ _)

theorem kept_screenSet (s : State) (r : CmdRef) {set : Settings → Settings} {edit : Settings → Scr → Scr}
    (slots : .slots ∈ ps ∨ ((set s.settings).layout = s.settings.layout ∧ (set s.settings).source = s.settings.source))
    (page : KeepsPage (edit (set s.settings))) (m : .shares ∈ ps) : Kept ps s (s.screenSet r set edit) := by
  have set : Kept ps s { s with settings := set s.settings, scr := edit (set s.settings) s.scr } := by
    intro p n
    cases p with
    | slots => exact slots.resolve_left n
    | shares => exact absurd m n
    | page => exact page s.scr
    | _ => simp [SamePart, State.port]
  exact .ite (fun _ => .refl ps s) fun _ =>
    (set.trans ((kept_screenChange _ _ _ _).mono (by simpa using m))).trans (kept_emit _ _)

theorem kept_bindPoint (s : State) (r : CmdRef) (p : Point) (seat : Option Seat) : Kept [.shares] s (s.bindPoint r p seat) :=
  .ite (fun _ => .refl _ s) fun _ => .ite (fun _ => .refl _ s) fun _ =>
    kept_screenSet s r (.inr ⟨rfl, rfl⟩) (fun _ => ⟨rfl, rfl, rfl⟩) (.head _)

theorem kept_startShare (s : State) (r : CmdRef) (p : Point) : Kept [.shares] s (s.startShare r p) := by
  unfold State.startShare
  split
  · exact .refl _ s
  · exact .ite (fun _ => .refl _ s) fun _ => .ite (fun _ => .refl _ s) fun _ => kept_screenReply s r _ _ fun _ => ⟨rfl, rfl, rfl⟩

theorem kept_screenCommand (c : Instr) (s : State) (h : touches c = [.shares]) : Kept [.shares] s (s.after c) := by
  cases c with
  | lossTimerExpiry p => exact kept_after rfl (.ite (fun _ => kept_screenEvent s _ _ (keepsPage_loseSignal p)) fun _ => .refl _ s)
  | floorGraceExpiry p => exact kept_after rfl (.ite (fun _ => kept_screenEvent s _ _ (keepsPage_drop _)) fun _ => .refl _ s)
  | presenceReportAtScr x now => exact kept_after rfl (kept_screenEvent (s.taking _) _ _ (keepsPage_takePresence _ x now))
  | floorChangeAtScr f => exact kept_after rfl (kept_screenEvent (s.taking _) _ _ (keepsPage_takeView _ f))
  | speechRemainingReport l => exact kept_after rfl (kept_screenEvent (s.taking _) _ _ fun _ => ⟨rfl, rfl, rfl⟩)
  | enabledReportAtScr x b => exact kept_after rfl (kept_screenEvent (s.taking _) _ _ (keepsPage_takeEnabled x b))
  | shareKeyEvent x => exact kept_after rfl (kept_screenEvent (s.taking _) _ _ (keepsPage_toggleShare _ x))
  | shareSignalReport x b => exact kept_after rfl (kept_screenEvent (s.taking _) _ _ (keepsPage_takeSignal _ x b))
  | droppedSeatsReport l => exact kept_after rfl (kept_screenEvent (s.taking _) _ _ (keepsPage_drop _))
  | endingMarkReport b => exact kept_after rfl (kept_screenEvent (s.taking _) _ _ fun _ => ⟨rfl, rfl, rfl⟩)
  | setCaption r b =>
    cases b with
    | none => exact kept_after rfl (kept_whenFull (s := s.taking _) r (.refl _ _))
    | some b =>
      exact kept_after rfl (kept_whenFull (s := s.taking _) r (kept_screenSet _ r (.inr ⟨rfl, rfl⟩) (fun _ => ⟨rfl, rfl, rfl⟩) (.head _)))
  | setPresenterPolicy r p =>
    cases p with
    | none => exact kept_after rfl (kept_whenFull (s := s.taking _) r (.refl _ _))
    | some p =>
      exact kept_after rfl (kept_whenFull (s := s.taking _) r (kept_screenSet _ r (.inr ⟨rfl, rfl⟩) (fun _ => ⟨rfl, rfl, rfl⟩) (.head _)))
  | shareStart r p =>
    cases p with
    | none => exact kept_after rfl (kept_whenFull (s := s.taking _) r (.refl _ _))
    | some p => exact kept_after rfl (kept_whenFull (s := s.taking _) r (kept_startShare _ r p))
  | shareStop r p =>
    cases p with
    | none => exact kept_after rfl (kept_whenFull (s := s.taking _) r (.refl _ _))
    | some p =>
      exact kept_after rfl (kept_whenFull (s := s.taking _) r (.ite (fun _ => kept_screenReply _ r _ _ (keepsPage_drop _)) fun _ => .refl _ _))
  | approveShare r p b =>
    refine kept_after rfl (kept_whenFull (s := s.taking _) r ?_)
    split
    · exact .ite (fun _ => kept_screenReply _ r _ _ fun _ => ⟨rfl, rfl, rfl⟩) fun _ => .refl _ _
    · exact .refl _ _
  | bindSharePoint r p b =>
    refine kept_after rfl ?_
    split
    · exact kept_bindPoint (s.taking _) r _ none
    · exact kept_bindPoint (s.taking _) r _ _
    · exact .refl _ s
  | _ => simp [touches] at h

theorem kept_agendaEvent (cause : ShareCause) (plates : Bool) (s s0 : State) (v : Scr) :
    Kept [.shares, .page] s (State.screenChange cause plates s0 { s with scr := v }) :=
  (kept_scr s v).trans ((kept_screenChange cause plates s0 _).mono (by simp))

theorem kept_slotCommand (c : Instr) (s : State) (h : touches c = [.shares, .slots]) : Kept [.shares, .slots] s (s.after c) := by
  cases c with
  | setLayout r c l =>
    refine kept_after rfl (kept_whenFull (s := s.taking _) r ?_)
    split
    · exact kept_screenSet _ r (.inl (by simp)) (fun _ => ⟨rfl, rfl, rfl⟩) (.head _)
    · exact .refl _ _
  | setSlot r k c =>
    refine kept_after rfl (kept_whenFull (s := s.taking _) r ?_)
    split
    · exact kept_screenSet _ r (.inl (by simp)) (fun _ => ⟨rfl, rfl, rfl⟩) (.head _)
    · exact .refl _ _
  | _ => simp [touches] at h

/-! ## The store and the scheduler -/

/-- The store changed alone, and its write queue is still sound if it was. -/
def Stored (s t : State) : Prop := Kept [.writes] s t ∧ (s.bks.QueueSound → t.bks.QueueSound)

theorem Stored.refl (s : State) : Stored s s := ⟨.refl _ s, id⟩

theorem Stored.trans {s t u : State} (h : Stored s t) (k : Stored t u) : Stored s u := ⟨h.1.trans k.1, k.2 ∘ h.2⟩

theorem Stored.ite {s t u : State} {c : Prop} [Decidable c] (h : c → Stored s t) (k : ¬c → Stored s u) : Stored s (if c then t else u) := by
  split
  · exact h ‹_›
  · exact k ‹_›

theorem Scheduled.stored {s t : State} (h : Scheduled s t) : Stored s t := ⟨h.kept (.head _), h.sound⟩

theorem stored_bks (s : State) {b : Bks} (sound : s.bks.QueueSound → b.QueueSound) : Stored s { s with bks := b } := ⟨kept_bks s b, sound⟩

theorem stored_emit (s : State) (l : List Instr) : Stored s (s.emit l) := .refl s

theorem stored_await (s : State) (r : CmdRef) (waits : List WriteWait) (payload : List Byte) : Stored s (s.await r waits payload) :=
  .ite (fun _ => .refl s) fun _ => .refl s

theorem stored_setNumber {s : State} (r : CmdRef) (lo hi : Int) (v : NumArg) (shown : Int → List Byte) {set : Int → State → State}
    (h : ∀ n, Stored s (set n s)) : Stored s (s.setNumber r lo hi v shown set) := by
  cases v with
  | none => exact .refl s
  | some n => exact .ite (fun _ => h n) fun _ => h (clampInt lo hi n)

theorem forget_sound (gone : PIdx → Bool) (slots : List BSlot) {b : Bks} (h : b.QueueSound) : (b.forget gone slots).QueueSound := by
  unfold Bks.forget
  induction slots generalizing b with
  | nil => exact h
  | cons i slots ih => exact ih (setBooking_sound h)

/-- What a command stores, read off from the state it is seen to answer with. -/
theorem stored_after {c : Instr} {s t : State} (h : exec c s = .next t) (k : Stored s t) : Stored s (s.after c) := after_of_exec h ▸ k

theorem stored_setParticipant (s : State) (p : PIdx) (v : Option Participant) : Stored s { s with bks := s.bks.setParticipant p v } :=
  stored_bks s setParticipant_sound

theorem stored_setBooking (s : State) (i : BSlot) (v : Option Booking) : Stored s (s.setBooking i v) := stored_bks s setBooking_sound

theorem stored_applyEdit (s : State) (r : CmdRef) (i : BSlot) (old new : Booking) : Stored s (s.applyEdit r i old new) :=
  .ite (fun _ => .refl s) fun _ => (((stored_setBooking s i _).trans (stored_emit _ _)).trans (stored_emit _ _)).trans (stored_await _ _ _ _)

theorem stored_editChecked (s : State) (r : CmdRef) (i : BSlot) (old new : Booking) : Stored s (s.editChecked r i old new) :=
  .ite (fun _ => stored_applyEdit s r i old new) fun _ => .ite (fun _ => .refl s) fun _ => .ite (fun _ => .refl s) fun _ =>
    .ite (fun _ => .refl s) fun _ => stored_applyEdit s r i old new

theorem stored_placeBooking (s : State) (r : CmdRef) (i : BSlot) (k : Booking) : Stored s (s.placeBooking r i k) :=
  (((stored_setBooking s i _).trans (stored_emit _ _)).trans (stored_emit _ _)).trans (stored_await _ _ _ _)

theorem stored_extendTo (s : State) (r : CmdRef) (i : BSlot) (k : Booking) (stop : DayMinute) : Stored s (s.extendTo r i k stop) := by
  have moved : Stored s (if k.state = .ending then
      ((s.remember none none).transition i k .active fun b => { b with stop := stop }).endingStops
      else s.setBooking i (some { k with stop := stop })) :=
    .ite (fun _ => ((((Scheduled.refl s).remember none none).transition i k .active _).emit _).stored) fun _ => stored_setBooking s i _
  exact ((moved.trans ((Scheduled.refl _).refreshAgenda.stored)).trans (stored_await _ _ _ _)).trans
    ((Scheduled.refl _).evaluate.stored)

theorem stored_storeCommand (c : Instr) (s : State) (h : touches c = [.writes]) : Stored s (s.after c) := by
  cases c with
  | noShowDeadline => exact stored_after rfl (.ite (fun _ => (Scheduled.refl s).evaluate.stored) fun _ => .refl s)
  | graceDeadline => exact stored_after rfl (.ite (fun _ => (Scheduled.refl s).evaluate.stored) fun _ => .refl s)
  | storeWriteEnd =>
    refine stored_after rfl ?_
    split
    · exact .refl s
    · rename_i w writing
      exact (stored_bks s fun h => startWrite_sound (endWrite_sound writing h)).trans (stored_emit _ _)
  | supplyWarningReport b => exact stored_after rfl (.ite (fun _ => .refl s) fun _ => (stored_bks (s.taking _)
      fun h => startWrite_sound (b := { s.bks with supplyHeld := b }) h).trans (stored_emit _ _))
  | micFlagReport x =>
    refine stored_after rfl ?_
    split
    · exact .refl s
    · exact .ite (fun _ => (((Scheduled.refl (s.taking _)).clearKeyFlags _ _).checkInNow _ _).stored) fun _ => .refl s
  | occupancyEdge l e =>
    refine stored_after rfl ?_
    split
    · exact .refl s
    · exact ((Scheduled.refl (s.taking _)).checkInNow _ _).stored
  | bookingReport b =>
    have refl := Scheduled.refl (s.taking (.bookingReport b))
    refine stored_after rfl ?_
    split
    · exact refl.refreshAgenda.evaluate.stored
    · rename_i i old new titled moved
      have back := refl.stepBack i moved
      refine Scheduled.stored (s := s.taking (.bookingReport (.edited i old new titled moved))) (Scheduled.evaluate (Scheduled.agendaAfterEdit ?_ _ _))
      split
      · exact .ite (fun _ => back.passEdit _ old new) fun _ => back
      · exact back
    · exact (Scheduled.evaluate (Scheduled.refreshAgenda (.ite (fun _ => refl.emit _) fun _ => refl))).stored
  | addBooking r f =>
    refine stored_after rfl ?_
    split
    · exact .refl s
    · refine .ite (fun _ => .refl s) fun _ => .ite (fun _ => .refl s) fun _ => .ite (fun _ => .refl s) fun _ => ?_
      split
      · exact .refl s
      · exact stored_placeBooking (s.taking _) r _ _
  | cancelBooking r i =>
    refine stored_after rfl ?_
    split
    · exact .refl s
    · split
      · exact .refl s
      · exact .ite (fun _ => (((stored_setBooking (s.taking _) _ _).trans (stored_emit _ _)).trans (stored_emit _ _)).trans (stored_await _ _ _ _))
          fun _ => .refl s
  | deleteBooking r i =>
    refine stored_after rfl ?_
    split
    · exact .refl s
    · split
      · exact .refl s
      · exact .ite (fun _ => .refl s) fun _ => ((stored_setBooking (s.taking _) _ _).trans (stored_emit _ _)).trans (stored_await _ _ _ _)
  | editBooking r i e =>
    refine stored_after rfl ?_
    split
    · exact .refl s
    · split
      · exact .refl s
      · refine .ite (fun _ => .refl s) fun _ => ?_
        split
        · exact .refl s
        · exact stored_editChecked (s.taking _) r _ _ _
  | addParticipant r name note =>
    refine stored_after rfl (.ite (fun _ => .refl s) fun _ => ?_)
    split
    · exact .refl s
    · exact ((stored_setParticipant (s.taking _) _ _).trans (stored_emit _ _)).trans (stored_await _ _ _ _)
  | editParticipant r p name note =>
    refine stored_after rfl ?_
    split
    · exact .refl s
    · split
      · exact .refl s
      · exact .ite (fun _ => .refl s) fun _ => .ite (fun _ => .refl s) fun _ =>
          (((stored_setParticipant (s.taking _) _ _).trans (stored_emit _ _)).trans (stored_emit _ _)).trans (stored_await _ _ _ _)
  | deleteParticipant r p =>
    refine stored_after rfl ?_
    split
    · exact .refl s
    · exact .ite (fun _ => .refl s) fun _ => .ite (fun _ => .refl s) fun _ =>
        (((stored_bks (s.taking _) fun h => forget_sound _ _ (setParticipant_sound h)).trans (stored_emit _ _)).trans (stored_emit _ _)).trans (stored_await _ _ _ _)
  | saveSettings r => exact stored_after rfl ((stored_bks (s.taking _) fun h => change_sound (b := { s.bks with saveImage := s.settings }) h).trans (stored_await _ _ _ _))
  | checkIn r =>
    refine stored_after rfl ?_
    split
    · exact .refl s
    · exact .ite (fun _ => (((Scheduled.refl (s.taking _)).checkInNow _ _).stored).trans (stored_await _ _ _ _)) fun _ => .refl s
  | extend r i stop =>
    refine stored_after rfl ?_
    split
    · exact .refl s
    · refine .ite (fun _ => .refl s) fun _ => ?_
      split
      · exact .refl s
      · exact .ite (fun _ => .refl s) fun _ => .ite (fun _ => .refl s) fun _ => .ite (fun _ => .refl s) fun _ =>
          .ite (fun _ => .refl s) fun _ => stored_extendTo (s.taking _) r _ _ _
  | endNow r i =>
    have ends : ∀ (i : BSlot) (k : Booking) (new : BState) (u : State) (w : List WriteWait),
        Stored u ((u.endBooking i k new).await r w).evaluate := fun i k new u w =>
      ((((Scheduled.refl u).endBooking i k new).stored).trans (stored_await _ _ _ _)).trans ((Scheduled.refl _).evaluate.stored)
    refine stored_after rfl ?_
    split
    · exact .refl s
    · split
      · exact .refl s
      · exact .ite (fun _ => ends _ _ _ (s.taking _) _) fun _ => .ite (fun _ => ends _ _ _ (s.taking _) _) fun _ => .refl s
  | setPreStartLead r v => exact stored_after rfl (stored_setNumber (s := s.taking _) r _ _ v _ fun n =>
      (Stored.refl { s.taking _ with settings := { s.settings with preStartLead := n.toNat } }).trans
        ((Scheduled.refl _).evaluate.stored))
  | _ => simp [touches] at h

/-! ## Every command -/

theorem kept_handOver (m : .places ∈ ps) (s : State) (p : Port) (h : InHand) (c : Command) : Kept ps s (s.handOver p h c) := by
  have port : ∀ v, Kept ps s (s.putPort p v) := fun v => (kept_cph s _).mono (by simpa using m)
  exact .ite (fun _ => (port _).trans (.ite (fun _ => kept_emit _ _) fun _ => .refl _ _)) fun _ =>
    ((port _).trans (kept_emit _ _)).trans (.ite (fun _ => .refl _ _) fun _ => .refl _ _)

theorem kept_take (m : .places ∈ ps) (s : State) (p : Port) (c : CommandRecord) : Kept ps s (s.take p c) := by
  have hub : ∀ (u : State) (h : Cph), Kept ps u { u with cph := h } := fun u h => (kept_cph u h).mono (by simpa using m)
  have tagged := hub s { s.cph with nextTag := s.cph.nextTag + 1 }
  unfold State.take
  dsimp only
  split
  · exact tagged.trans (hub _ _)
  · exact .ite (fun _ => tagged.trans (kept_handOver m _ _ _ _)) fun _ => tagged.trans (hub _ _)

theorem kept_portCommand (c : Instr) (s : State) (h : touches c = [.places]) : Kept [.places] s (s.after c) := by
  have hub : ∀ (u : State) (h : Cph), Kept [.places] u { u with cph := h } := kept_cph
  cases c with
  | notice k p => exact kept_after rfl (hub (s.taking _) _)
  | blockResult r res p => exact kept_after rfl (hub (s.taking _) _)
  | post p f =>
    refine kept_after rfl (.ite (fun _ => hub s _) fun _ => .ite (fun _ => hub s _) fun _ => ?_)
    split
    · exact .ite (fun _ => hub s _) fun _ => (hub s _ : Kept _ s (s.answer p takenAnswer)).trans (kept_take (.head _) _ p _)
    · exact hub s _
  | fetch p f =>
    refine kept_after rfl (.ite (fun _ => hub s _) fun _ => .ite (fun _ => hub s _) fun _ => .ite (fun _ => ?_) fun _ => hub s _)
    split
    · exact hub s _
    · exact (hub s _ : Kept _ s (s.putPort p _)).trans (hub _ _)
  | portReset p f =>
    refine kept_after rfl (.ite (fun _ => ?_) fun _ => .refl _ s)
    exact (hub { s with flight := _ } _).trans (kept_freeAuthorities _ _ _ _)
  | _ => simp [touches] at h

theorem kept_gainCommand (c : Instr) (s : State) (h : touches c = [.gains]) : Kept [.gains] s (s.after c) := by
  have set : ∀ (u : State) (st : Settings), st.layout = u.settings.layout ∧ st.source = u.settings.source →
      Kept [.gains] u ({ u with settings := st } : State).replan := by
    intro u st slots p n
    cases p with
    | slots => exact slots
    | _ => exact kept_mix u (u.mix.planned st) _ n
  cases c with
  | rampTick => exact kept_after rfl (.ite (fun _ => kept_mix s _) fun _ => .refl _ s)
  | floorChangeAtMix v => exact kept_after rfl (kept_mix (s.taking _) _)
  | muteSwitchAtMix b => exact kept_after rfl (kept_mix (s.taking _) _)
  | setMaster r v => exact kept_after rfl (kept_whenFull (s := s.taking _) r (kept_setNumber r _ _ v _ fun n => set _ _ ⟨rfl, rfl⟩))
  | setDuck r v => exact kept_after rfl (kept_whenFull (s := s.taking _) r (kept_setNumber r _ _ v _ fun n => set _ _ ⟨rfl, rfl⟩))
  | setTrim r x v =>
    refine kept_after rfl (kept_whenFull (s := s.taking _) r ?_)
    split
    · exact kept_setNumber r _ _ v _ fun n => set _ _ ⟨rfl, rfl⟩
    · exact kept_setNumber r _ _ v _ fun n => set _ _ ⟨rfl, rfl⟩
    · exact .refl _ _
  | setNom r b =>
    cases b with
    | none => exact kept_after rfl (kept_whenFull (s := s.taking _) r (.refl _ _))
    | some b => exact kept_after rfl (kept_whenFull (s := s.taking _) r ((set (s.taking _) { s.settings with nom := b } ⟨rfl, rfl⟩).trans
        (kept_emit _ _)))
  | _ => simp [touches] at h

theorem kept_busCommand (c : Instr) (s : State) (h : touches c = [.marks]) : Kept [.marks] s (s.after c) := by
  cases c with
  | poll b => exact kept_after rfl (.ite (fun _ => .ite (fun _ => (kept_tbc s _).trans (kept_enterFull _)) fun _ => kept_tbc s _) fun _ => .refl _ s)
  | acceptedAnswer x a =>
    exact kept_after rfl (.ite (fun _ => .ite (fun _ => kept_missed (.head _) s x) fun _ => kept_accepted (.head _) s x a) fun _ => .refl _ s)
  | missedAnswer x => exact kept_after rfl (.ite (fun _ => kept_missed (.head _) s x) fun _ => .refl _ s)
  | ringChange x => exact kept_after rfl (kept_tbc (s.taking _) _)
  | nameplateChange x => exact kept_after rfl (kept_tbc (s.taking _) _)
  | _ => simp [touches] at h

theorem kept_clearKeyFlags (s : State) (p : Seat → Bool) (keys : List Key) : Kept ps s (s.clearKeyFlags p keys) := by
  refine (kept_of_marks fun x => ?_).mono (List.nil_subset ps)
  have seat := (scheduled_clearKeyFlags s p keys).seats x
  simp only [State.clearKeyFlags] at seat
  rw [seat]
  exact ⟨rfl, rfl, rfl⟩

/-- The part that a block's report of the power state may change. -/
def powerTouches : BlockId → List Part
  | .tbc => [.marks]
  | .flc => [.floor]
  | .mix => [.gains]
  | .scr => [.shares]
  | .vdt | .rln => []

theorem kept_blockTakesPower (s : State) (b : BlockId) (p : Power) (phase : Option Phase) :
    Kept (powerTouches b) s (s.blockTakesPower b p phase) := by
  cases b with
  | tbc => exact kept_tbc s (s.tbc.takePower p phase)
  | flc => exact kept_floorEdit s .report (Flc.takePower · p)
  | mix => exact kept_mix s (s.mix.takePower p phase)
  | vdt => exact .refl _ s
  | scr => exact kept_screenEvent s .report true (keepsPage_takePower p)
  | rln => exact .refl _ s

theorem after_powerStateReport (s : State) (b : BlockId) (p : Power) (phase : Option Phase) :
    s.after (.powerStateReport b p phase) = (s.taking (.powerStateReport b p phase)).blockTakesPower b p phase := rfl

theorem kept_powerStateReport (s : State) (b : BlockId) (p : Power) (phase : Option Phase) :
    Kept [.gains, .marks, .floor, .shares] s (s.after (.powerStateReport b p phase)) := by
  have taken : Kept [.gains, .marks, .floor, .shares] s (s.taking (.powerStateReport b p phase)) := .refl _ s
  rw [after_powerStateReport]
  exact taken.trans ((kept_blockTakesPower _ b p phase).mono (by cases b <;> simp [powerTouches]))

theorem kept_clocked (s : State) (roomRuns : Bool) : Kept [] s (s.clocked roomRuns) :=
  .ite (fun _ => .refl [] s) fun _ => (.refl [] s : Kept [] s s.deriveScreens.tellLevels).trans (kept_loseClock _)

theorem kept_scheduled (s : State) : Kept [.writes] s s.scheduled :=
  ((Scheduled.refl s).startEvaluation.kept (.head []) : Kept [.writes] s s.startEvaluation)

theorem kept_started (s : State) : Kept [] s s.started :=
  .ite (fun _ => .refl [] s) fun _ => .refl [] s

theorem loaded_pending (s : State) (d : ResetDetectors) (roomRuns : Bool) : (s.loaded d roomRuns).pending = s.pending := by
  simp only [State.loaded]

theorem exec_reset (s : State) (d : ResetDetectors) (roomRuns : Bool) :
    exec (.reset d roomRuns) s = .next ((((s.loaded d roomRuns).clocked roomRuns).scheduled).started) := by
  unfold exec execReset
  exact rfl

/-- What follows the loading of the blocks at a reset (R174, steps 3 to 6) changes no part but the writes. -/
theorem kept_afterLoading (s : State) (d : ResetDetectors) (roomRuns : Bool) :
    Kept [.writes] (s.loaded d roomRuns) (s.after (.reset d roomRuns)) := by
  have lines := (kept_clocked (s.loaded d roomRuns) roomRuns).mono (List.nil_subset [.writes])
  have meetings := kept_scheduled ((s.loaded d roomRuns).clocked roomRuns)
  have start := (kept_started ((s.loaded d roomRuns).clocked roomRuns).scheduled).mono (List.nil_subset [.writes])
  rw [← after_of_exec (exec_reset s d roomRuns)]
  exact (lines.trans meetings).trans start

theorem kept_reset (s : State) (d : ResetDetectors) (roomRuns : Bool) :
    Kept [.gains, .time, .marks, .places, .writes, .floor, .shares, .page, .slots] s (s.after (.reset d roomRuns)) := by
  intro p n
  cases p with
  | queue =>
    have kept : (s.after (.reset d roomRuns)).pending = (s.loaded d roomRuns).pending := kept_afterLoading s d roomRuns .queue (by simp)
    have queue : (s.after (.reset d roomRuns)).pending = s.pending := by rw [kept, loaded_pending]
    exact queue
  | _ => simp at n

/-- The commands of the audio rates, of the timers and of the facts of the room that touch no part. -/
def isTimed : Instr → Bool
  | .samplePeriod .. | .block | .idleTimerExpiry | .sleepTimerExpiry | .powerSettleEnd | .enumerationEnd | .presenceTimerExpiry ..
  | .lineSample .. | .roomCrystalStopped | .audioCrystalStopped | .audioCrystalRunning | .presenceReportAtMix .. | .enabledReportAtTbc ..
  | .wakeRequest .. | .bookingCurrentReport .. | .floorEmptyReport .. | .shareListEmptyReport .. => true
  | _ => false

/-- The commands that set a number or a key mode or read what is held, and touch no part. -/
def isSetting : Instr → Bool
  | .keyFlagClearing .. | .setKeyMode .. | .clearKeyFlags .. | .setDebounce .. | .setOverrunGrace .. | .setIdleTime .. | .setSleepDelay ..
  | .setSpeakerLevel .. | .setSelfDuck .. | .setExclusion .. | .setFloorGrace .. | .setVoiceThreshold .. | .setVoiceOnset ..
  | .setVoiceHold .. | .setRemoteGain .. | .readSeat .. | .readScreens .. | .listBookings .. | .readParticipant .. | .readBooking ..
  | .readMeters .. => true
  | _ => false

theorem kept_timedCommand (c : Instr) (s : State) (h : isTimed c = true) : Kept [] s (s.after c) := by
  cases c with
  | samplePeriod m r =>
    exact kept_after rfl (.ite (fun _ => (kept_endBlock s).trans (kept_samplePeriod _ _ _)) fun _ => kept_audioStill s)
  | block => exact kept_after rfl (.ite (fun _ => kept_endBlock s) fun _ => .refl _ s)
  | idleTimerExpiry | sleepTimerExpiry | powerSettleEnd => exact kept_after rfl (.ite (fun _ => .refl _ s) fun _ => .refl _ s)
  | enumerationEnd => exact kept_after rfl (.ite (fun _ => kept_enterFull s) fun _ => .refl _ s)
  | presenceTimerExpiry p => exact kept_presenceTimerExpiry s p
  | lineSample levels =>
    exact kept_after rfl (((kept_tickTimers s).trans (.foldl (fun u l => kept_sampleLine u l _) allLines _)).trans (kept_tellLevels _))
  | roomCrystalStopped => exact kept_after rfl (.ite (fun _ => .refl _ s) fun _ => kept_loseClock { s with pcu := _ })
  | audioCrystalStopped =>
    have still := kept_audioStill (ps := []) ({ s with pcu := { s.pcu with audio := .stopped } } : State)
    exact kept_after rfl (.ite (fun _ => .refl _ s) fun _ => still.trans (kept_emit _ _))
  | audioCrystalRunning => exact kept_after rfl (.ite (fun _ => .refl _ s) fun _ => .refl _ s)
  | presenceReportAtMix x now =>
    refine kept_after rfl ((kept_of_gains (s := s.taking _) fun y => ?_).mono (List.nil_subset _))
    simp only [Mix.takePresence, Tab.get_upd]
    split
    · rename_i e
      exact e ▸ ⟨rfl, rfl⟩
    · exact ⟨rfl, rfl⟩
  | enabledReportAtTbc x b =>
    refine kept_after rfl ((kept_of_marks (s := s.taking _) fun y => ?_).mono (List.nil_subset _))
    simp only [Tbc.put, Tab.get_upd]
    split
    · rename_i e
      exact e ▸ ⟨rfl, rfl, rfl⟩
    · exact ⟨rfl, rfl, rfl⟩
  | wakeRequest cause => exact kept_after rfl (kept_wakeUp (s.taking _) cause)
  | bookingCurrentReport b =>
    have refreshed := kept_refreshIdle (ps := []) { s.taking (.bookingCurrentReport b) with pcu := { s.pcu with bookingCurrent := b } } s.pcu.unused
    exact kept_after rfl (.ite (fun _ => refreshed.trans (kept_wakeUp _ _)) fun _ => refreshed)
  | floorEmptyReport b => exact kept_after rfl (kept_refreshIdle { s.taking _ with pcu := _ } _)
  | shareListEmptyReport b => exact kept_after rfl (kept_refreshIdle { s.taking _ with pcu := _ } _)
  | _ => simp [isTimed] at h

theorem kept_settingCommand (c : Instr) (s : State) (h : isSetting c = true) : Kept [] s (s.after c) := by
  cases c with
  | keyFlagClearing b => exact kept_after rfl (kept_clearKeyFlags (s.taking _) _ _)
  | setKeyMode r x m =>
    refine kept_after rfl ?_
    split <;> exact .refl _ s
  | clearKeyFlags r x ks =>
    refine kept_after rfl ?_
    split
    · exact (kept_clearKeyFlags (s.taking _) _ _).trans (kept_emit _ _)
    · exact (kept_clearKeyFlags (s.taking _) _ _).trans (kept_emit _ _)
    · exact .refl _ s
  | setDebounce r v | setOverrunGrace r v | setIdleTime r v => exact kept_after rfl (kept_setNumber (s := s.taking _) r _ _ v _ fun n => .refl _ s)
  | setSleepDelay r v =>
    exact kept_after rfl (kept_setNumber (s := s.taking _) r _ _ v _ fun n => .ite (fun _ => .refl _ s) fun _ => .refl _ s)
  | setSpeakerLevel r v | setSelfDuck r v | setExclusion r v | setFloorGrace r v =>
    exact kept_after rfl (kept_whenFull (s := s.taking _) r (kept_setNumber r _ _ v _ fun n => .refl _ s))
  | setVoiceThreshold r v | setVoiceOnset r v | setVoiceHold r v =>
    exact kept_after rfl (kept_whenFull (s := s.taking _) r (kept_setVoice r v _ fun n => .refl _ s))
  | setRemoteGain r g =>
    refine kept_after rfl (kept_whenFull (s := s.taking _) r ?_)
    split
    · exact .refl _ _
    · exact .refl _ _
    · exact kept_setNumber r _ _ _ _ fun n => .refl _ s
  | readSeat | readScreens | listBookings | readParticipant => exact kept_after rfl (.ite (fun _ => .refl _ s) fun _ => .refl _ s)
  | readBooking r i =>
    refine kept_after rfl ?_
    split <;> exact .refl _ s
  | readMeters r first count =>
    refine kept_after rfl (.ite (fun _ => .refl _ s) fun _ => Kept.trans (t := { s with mix := s.mix.metersCleared }) ?_ (.refl _ _))
    exact (kept_of_gains fun x => by simp [Mix.metersCleared]).mono (List.nil_subset _)
  | _ => simp [isSetting] at h

theorem kept_enterQuiet (s : State) (cause : PowerCause) : Kept [] s (s.enterQuiet cause) := .refl _ s

theorem kept_enterSleep (s : State) (cause : PowerCause) : Kept [] s (s.enterSleep cause) := .refl _ s

theorem kept_reply (s : State) (r : CmdRef) (res : Result) : Kept [] s (s.reply r res) := .refl _ s

theorem kept_quietAnswer (s : State) (r : CmdRef) : Kept [] s (match s.pcu.power with
    | some .full => if s.meetingRuns then s.reply r .state else (s.enterQuiet .command).reply r .ok
    | some .quiet | some .sleep => s.reply r .ok
    | some .waking | none => s.reply r .state) := by
  split
  · exact .ite (fun _ => kept_reply s r _) fun _ => (kept_enterQuiet s .command).trans (kept_reply _ r _)
  all_goals exact kept_reply s r _

theorem kept_sleepAnswer (s : State) (r : CmdRef) : Kept [] s (match s.pcu.power with
    | some .full => if s.meetingRuns then s.reply r .state else ((s.enterQuiet .command).enterSleep .command).reply r .ok
    | some .quiet => if s.meetingRuns then s.reply r .state else (s.enterSleep .command).reply r .ok
    | some .sleep => s.reply r .ok
    | some .waking | none => s.reply r .state) := by
  split
  · exact .ite (fun _ => kept_reply s r _) fun _ =>
      ((kept_enterQuiet s .command).trans (kept_enterSleep _ .command)).trans (kept_reply _ r _)
  · exact .ite (fun _ => kept_reply s r _) fun _ => (kept_enterSleep s .command).trans (kept_reply _ r _)
  all_goals exact kept_reply s r _

/-- The commands of the lines, the lock policy and the power state, which touch no part. -/
def isRoom : Instr → Bool
  | .setLockPolicy .. | .setStartState .. | .setLine .. | .clearLineFlags .. | .quiet _ | .sleep _ | .wake _ => true
  | _ => false

theorem kept_roomCommand (c : Instr) (s : State) (h : isRoom c = true) : Kept [] s (s.after c) := by
  cases c with
  | setLockPolicy r p =>
    cases p with
    | none => exact kept_after rfl (.refl _ s)
    | some p => exact kept_after rfl (.ite (fun _ => .refl _ s) fun _ => .refl _ s)
  | setStartState r p =>
    cases p with
    | none => exact kept_after rfl (.refl _ s)
    | some p => exact kept_after rfl (.refl _ s)
  | setLine r l e =>
    refine kept_after rfl ?_
    split
    · exact .refl _ s
    · split
      · exact .refl _ s
      · exact .ite (fun _ => .refl _ s) fun _ => .refl _ s
  | clearLineFlags r l =>
    cases l with
    | none => exact kept_after rfl (.refl _ s)
    | some l => exact kept_after rfl (.refl _ s)
  | quiet r => exact kept_after rfl (kept_quietAnswer (s.taking (.quiet r)) r)
  | sleep r => exact kept_after rfl (kept_sleepAnswer (s.taking (.sleep r)) r)
  | wake r => exact kept_after rfl (kept_whenFull (s := s.taking _) r (.refl _ s))
  | _ => simp [isRoom] at h

/-- A command changes no part but those it may change. -/
theorem after_kept (c : Instr) (s : State) : Kept (touches c) s (s.after c) := by
  cases c with
  | reset d b => exact kept_reset s d b
  | powerStateReport b p phase => exact kept_powerStateReport s b p phase
  | secondEvent => exact kept_secondEvent s
  | setClock r day second =>
    have set : ∀ u : State, Kept [.time, .writes] u { u with msc := u.msc.setTo day second } := fun u => (kept_msc u _).mono (by simp)
    exact kept_after rfl (.ite (fun _ => .refl _ s) fun _ => .ite (fun _ => .refl _ s) fun _ =>
      (((set (s.taking _)).trans (kept_emit _ _)).trans (((Scheduled.refl _).catchUp false).kept (by simp))).trans (kept_emit _ _))
  | activationAtScr e a => exact kept_after rfl (kept_agendaEvent _ _ (s.taking _) _ _)
  | agendaReport a => exact kept_after rfl (kept_agendaEvent _ _ (s.taking _) _ _)
  | participantEditReport p =>
    refine kept_after rfl ?_
    split
    · exact kept_agendaEvent _ _ (s.taking _) _ _
    · exact (kept_screenChange _ _ _ (s.taking _)).mono (by simp [touches])
  | setLayout r c l => exact kept_slotCommand _ s rfl
  | setSlot r k c => exact kept_slotCommand _ s rfl
  | poll | acceptedAnswer | missedAnswer | ringChange | nameplateChange => exact kept_busCommand _ s rfl
  | rampTick | floorChangeAtMix | muteSwitchAtMix | setMaster | setTrim | setDuck | setNom => exact kept_gainCommand _ s rfl
  | notice | blockResult | post | fetch | portReset => exact kept_portCommand _ s rfl
  | noShowDeadline | graceDeadline | storeWriteEnd | supplyWarningReport | micFlagReport | occupancyEdge | bookingReport | addBooking
  | cancelBooking | deleteBooking | editBooking | addParticipant | editParticipant | deleteParticipant | saveSettings | checkIn | extend
  | endNow | setPreStartLead => exact (stored_storeCommand _ s rfl).1
  | speechTimerExpiry | refusalFlashExpiry | keyEvent | voiceOnset | voiceEnd | presenceReportAtFlc | muteSwitchAtFlc | activationReport
  | endingReport | attendeeEditReport | seatingReport | participantDeletionReport | grant | grantNext | addRequest | close | closeSpeakers
  | clearQueue | setFloorMode | setOpenLimit | setOverflow | setPriorityPolicy | setSpeechLimit | enableSeat | setRole =>
    exact kept_floorCommand _ s rfl
  | lossTimerExpiry | floorGraceExpiry | presenceReportAtScr | floorChangeAtScr | speechRemainingReport | enabledReportAtScr | shareKeyEvent
  | shareSignalReport | droppedSeatsReport | endingMarkReport | setCaption | setPresenterPolicy | shareStart | shareStop | approveShare
  | bindSharePoint => exact kept_screenCommand _ s rfl
  | samplePeriod | block | idleTimerExpiry | sleepTimerExpiry | powerSettleEnd | enumerationEnd | presenceTimerExpiry | lineSample
  | roomCrystalStopped | audioCrystalStopped | audioCrystalRunning | presenceReportAtMix | enabledReportAtTbc | wakeRequest
  | bookingCurrentReport | floorEmptyReport | shareListEmptyReport =>
    exact kept_timedCommand _ s rfl
  | keyFlagClearing | setKeyMode | clearKeyFlags | setDebounce | setOverrunGrace | setIdleTime | setSleepDelay | setSpeakerLevel
  | setSelfDuck | setExclusion | setFloorGrace | setVoiceThreshold | setVoiceOnset | setVoiceHold | setRemoteGain | readSeat | readScreens
  | listBookings | readParticipant | readBooking | readMeters =>
    exact kept_settingCommand _ s rfl
  | setLockPolicy | setStartState | setLine | clearLineFlags | quiet | sleep | wake => exact kept_roomCommand _ s rfl
  | subscribe r k => exact kept_subscribe s r k
  | claim r w n => exact kept_claim s r w n
  | release r n => exact kept_release s r n
  | presence r k => exact kept_presence s r k
  | chimePulseEnd | endingBlinkPhase | roomCrystalRunning | presenceReportAtVdt | eligibilityReport | sessionLampReport | liveLampReport
  | endingBlinkReport | chimeRequest | readFloor | readClock | readLines | identify | status => exact kept_after rfl (.refl _ s)

end

/-- Settles O1: the front of the queue decides the step. -/
theorem stepRunsTheFrontCommand : Obligations.StepRunsTheFrontCommand := fun _ _ => rfl

/-- Settles O2: every command answers the state after it, and none may change the queue. -/
theorem everyCommandGoesOn : Obligations.EveryCommandGoesOn := by
  intro c s
  refine ⟨s.after c, exec_eq_after c s, after_kept c s .queue ?_⟩
  cases c <;> simp [touches]

/-- A step is a command over a state that differs by the queue alone, or leaves the state as it is. -/
theorem step_cases {s t : State} (h : step s = .next t) : t = s ∨ ∃ c l, t = ({ s with pending := l } : State).after c := by
  unfold step at h
  split at h
  · exact .inr ⟨_, _, after_of_exec h⟩
  · unfold State.idleStep at h
    split at h
    · exact .inr ⟨_, s.pending, after_of_exec h⟩
    · exact .inl (Host.Outcome.next.inj h).symm

end Sys2Proof.Machine
end

section
/-! PROOF. How an invariant is kept by every step (`step_keeps`): it is upheld where its parts stand, so that only the commands that may
change those parts are left to see; and the invariants of the gains, the clock and the marks of the table bus. -/

namespace Sys2Proof.Machine

open Sys2Proof

/-- A predicate that depends on some parts of the state alone. -/
def Upheld (ps : List Part) (I : State → Prop) : Prop := ∀ {s t : State}, (∀ p ∈ ps, SamePart s t p) → I s → I t

section
variable {ps : List Part} {I : State → Prop} {s : State}

theorem Upheld.of_kept {qs : List Part} {t : State} (up : Upheld ps I) (k : Kept qs s t) (apart : ∀ p ∈ ps, p ∉ qs) (i : I s) : I t :=
  up (fun p m => k p (apart p m)) i

theorem Upheld.of_kept_nil {t : State} (up : Upheld ps I) (k : Kept [] s t) (i : I s) : I t := up.of_kept k (by simp) i

theorem Upheld.taking (up : Upheld ps I) (c : Instr) (i : I s) : I (s.taking c) := up.of_kept_nil (.refl _ s) i

theorem Upheld.emit (up : Upheld ps I) (l : List Instr) (i : I s) : I (s.emit l) := up.of_kept_nil (kept_emit s l) i

theorem Upheld.whenFull (up : Upheld ps I) (r : CmdRef) {effect : State → State} (i : I s) (e : I (effect s)) :
    I (s.whenFull r effect) := by
  unfold State.whenFull
  split
  · exact e
  · exact up.of_kept_nil (kept_waitForFull s r) i

theorem Upheld.setNumber (up : Upheld ps I) (r : CmdRef) (lo hi : Int) (v : NumArg) (shown : Int → List Byte) {set : Int → State → State}
    (i : I s) (e : ∀ n, I (set n s)) : I (s.setNumber r lo hi v shown set) := by
  cases v with
  | none => exact up.emit _ i
  | some n =>
    simp only [State.setNumber]
    split
    · exact up.emit _ (e n)
    · exact up.emit _ (e _)

/-- What holds after a command, read off from the state it is seen to answer with. -/
theorem holds_after {c : Instr} {t : State} (h : exec c s = .next t) (i : I t) : I (s.after c) := after_of_exec h ▸ i

theorem kept_queue (s : State) (l : List Instr) : Kept [.queue] s { s with pending := l } := by
  intro p n
  cases p with
  | queue => exact absurd (.head _) n
  | _ => simp [SamePart, State.port]

/-- An invariant of some parts is kept by every step when it is kept by the commands that may change one of those parts. -/
theorem step_keeps (up : Upheld ps I) (noQueue : .queue ∉ ps) (touching : ∀ c s, (∃ p ∈ ps, p ∈ touches c) → I s → I (s.after c))
    {t : State} (h : step s = .next t) (i : I s) : I t := by
  obtain rfl | ⟨c, l, rfl⟩ := step_cases h
  · exact i
  · have i' := up.of_kept (kept_queue s l) (fun p m n => noQueue (List.mem_singleton.mp n ▸ m)) i
    by_cases some : ∃ p ∈ ps, p ∈ touches c
    · exact touching c _ some i'
    · exact up.of_kept (after_kept c _) (fun p m n => some ⟨p, m, n⟩) i'

end

/-! ## The gains (R60, R63) -/

theorem gainInRange_targetOf (m : Mix) (st : Settings) (x : Seat) : gainInRange (m.targetOf st x) := by
  unfold Mix.targetOf
  split
  · trivial
  · split
    · trivial
    · exact clampInt_mem _ (by decide)

theorem upheld_gains : Upheld [.gains] GainsInRange := by
  intro s t same i x
  obtain ⟨target, applied⟩ := same _ (.head _) x
  exact target ▸ applied ▸ i x

/-- A plan gives every seat a target in range, whatever it is made from. -/
theorem gainsInRange_replan {s : State} (i : ∀ x, gainInRange (s.mix.seats.get x).applied) : GainsInRange s.replan := by
  intro x
  simp only [State.replan_mix, Mix.planned, Tab.get_gen]
  exact ⟨gainInRange_targetOf _ _ x, i x⟩

theorem gainsInRange_takePower {s : State} (p : Power) (phase : Option Phase) (i : GainsInRange s) :
    GainsInRange { s with mix := s.mix.takePower p phase } := by
  intro x
  cases p with
  | quiet => simpa [Mix.takePower, gainInRange] using (i x).1
  | sleep => simpa [Mix.takePower] using i x
  | full => exact i x
  | waking => exact i x

theorem gainsInRange_powerStateReport {s : State} (b : BlockId) (p : Power) (phase : Option Phase) (i : GainsInRange s) :
    GainsInRange (s.after (.powerStateReport b p phase)) := by
  rw [after_powerStateReport]
  have i := upheld_gains.taking (.powerStateReport b p phase) i
  have others : b ≠ .mix → GainsInRange ((s.taking (.powerStateReport b p phase)).blockTakesPower b p phase) := fun n =>
    upheld_gains.of_kept (kept_blockTakesPower _ b p phase) (by cases b <;> simp [powerTouches] at n ⊢) i
  cases b with
  | mix => exact gainsInRange_takePower p phase i
  | _ => exact others (by simp)

theorem gainsInRange_after (c : Instr) (s : State) (h : .gains ∈ touches c) (i : GainsInRange s) : GainsInRange (s.after c) := by
  have taking := fun c => upheld_gains.taking c i
  have planned : ∀ (c : Instr) (st : Settings), GainsInRange ({ s.taking c with settings := st } : State).replan := fun c st =>
    gainsInRange_replan fun x => (i x).2
  cases c with
  | reset d b =>
    refine upheld_gains.of_kept (kept_afterLoading s d b) (by simp) fun x => ?_
    simp only [State.loaded, Tab.get_all]
    exact ⟨trivial, trivial⟩
  | rampTick =>
    refine holds_after rfl ?_
    split
    · intro x
      obtain ⟨target, applied⟩ := i x
      simp only [Mix.ramped_seat, MixSeat.ramped_applied]
      exact ⟨target, gainInRange_rampStep target applied⟩
    · exact i
  | floorChangeAtMix v => exact holds_after rfl (gainsInRange_replan fun x => (i x).2)
  | muteSwitchAtMix b => exact holds_after rfl (gainsInRange_replan fun x => (i x).2)
  | setMaster r v =>
    exact holds_after rfl (upheld_gains.whenFull r (taking _) (upheld_gains.setNumber r _ _ v _ (taking _) fun n => planned _ _))
  | setDuck r v =>
    exact holds_after rfl (upheld_gains.whenFull r (taking _) (upheld_gains.setNumber r _ _ v _ (taking _) fun n => planned _ _))
  | setTrim r x v =>
    refine holds_after rfl (upheld_gains.whenFull r (taking _) ?_)
    split
    · exact upheld_gains.setNumber r _ _ v _ (taking _) fun n => planned _ _
    · exact upheld_gains.setNumber r _ _ v _ (taking _) fun n => planned _ _
    · exact upheld_gains.emit _ (taking _)
  | setNom r b =>
    refine holds_after rfl (upheld_gains.whenFull r (taking _) ?_)
    split
    · exact upheld_gains.emit _ (planned _ _)
    · exact upheld_gains.emit _ (taking _)
  | powerStateReport b p phase => exact gainsInRange_powerStateReport b p phase i
  | _ => simp [touches] at h

/-! ## The clock (R135) -/

theorem upheld_time : Upheld [.time] ClockInRange := by
  intro s t same i
  obtain ⟨day, second⟩ := same _ (.head _)
  unfold ClockInRange
  rw [day, second]
  exact i

theorem clockInRange_tick {s : State} (more : s.msc.atEnd = false) (i : ClockInRange s) : ClockInRange { s with msc := s.msc.tick } := by
  obtain ⟨day, second⟩ := i
  simp only [ClockInRange, Msc.tick, Msc.atEnd, Bool.and_eq_false_iff, decide_eq_false_iff_not] at *
  split
  · simp only; omega
  · simp only; omega

theorem clockInRange_secondEvent {s : State} (i : ClockInRange s) : ClockInRange (s.after .secondEvent) := by
  have lost : ClockInRange ({ s with msc := { s.msc with clock := .lost } } : State).tellClock := i
  refine holds_after rfl ?_
  split
  · exact i
  · split
    · exact lost
    · rename_i more
      have ticked : ClockInRange ({ s with msc := s.msc.tick } : State).speechSecond :=
        upheld_time.of_kept (kept_speechSecond (ps := [.floor]) (by simp) _) (by simp) (clockInRange_tick (by simpa using more) i)
      dsimp only
      split
      · exact upheld_time.of_kept (qs := [.writes]) ((Scheduled.refl _).evaluate.kept (.head _)) (by simp) ticked
      · exact ticked

theorem clockInRange_after (c : Instr) (s : State) (h : .time ∈ touches c) (i : ClockInRange s) : ClockInRange (s.after c) := by
  cases c with
  | reset d b =>
    refine upheld_time.of_kept (kept_afterLoading s d b) (by simp) ?_
    simp only [ClockInRange, State.loaded, Msc.atStart]
    split
    · exact i
    · simp
  | secondEvent => exact clockInRange_secondEvent i
  | setClock r day second =>
    have taking := upheld_time.taking (.setClock r day second) i
    refine holds_after rfl ?_
    split
    · exact upheld_time.emit _ taking
    · split
      · exact upheld_time.emit _ taking
      · have set : ClockInRange ({ s.taking (.setClock r day second) with msc := s.msc.setTo day second } : State).tellClock := by
          simp only [ClockInRange, State.tellClock, State.notify, State.emit, Msc.setTo]
          omega
        exact upheld_time.emit _ (upheld_time.of_kept (qs := [.writes]) (((Scheduled.refl _).catchUp false).kept (.head _)) (by simp) set)
  | _ => simp [touches] at h

/-! ## The marks of the table bus (R13) -/

/-- A seat that is not ONLINE has nothing to send. -/
def TbcSeat.MarksSound (t : TbcSeat) : Prop := t.presence ≠ .online → t.ringMark = .clear ∧ t.plateMark = .clear

theorem upheld_marks : Upheld [.marks] MarksClearUnlessOnline := by
  intro s t same i x
  obtain ⟨presence, ring, plate⟩ := same _ (.head _) x
  rw [presence, ring, plate]
  exact i x

theorem marksClear_put {s : State} {x : Seat} {v : TbcSeat} (sound : v.MarksSound) (i : MarksClearUnlessOnline s) :
    MarksClearUnlessOnline (s.putTbcSeat x v) := by
  intro y
  simp only [State.putTbcSeat_tbc, Tbc.put, Tab.get_upd]
  split
  · exact sound
  · exact i y

theorem marksSound_pollItem {ring : Ring} {plate : Plate} {t : TbcSeat} (sound : t.MarksSound) : (pollItem ring plate t).2.MarksSound := by
  unfold pollItem
  split
  · rename_i online
    split
    · exact fun n => absurd online n
    · split
      · exact fun n => absurd online n
      · exact sound
  · exact sound

theorem marksClear_pollOnce {s : State} (b : Branch) (i : MarksClearUnlessOnline s) : MarksClearUnlessOnline (s.pollOnce b) := by
  have put := fun x : Seat => marksClear_put (x := x) (marksSound_pollItem (ring := (s.flc.seats.get x).ring)
    (plate := (s.scr.seats.get x).plate) (i x)) i
  cases b with
  | left => exact put (seatAt .left (s.tbc.nextAddress .left))
  | right => exact put (seatAt .right (s.tbc.nextAddress .right))

theorem marksClear_missed {s : State} (x : Seat) (i : MarksClearUnlessOnline s) : MarksClearUnlessOnline (s.missed x) := by
  unfold State.missed
  dsimp only
  split
  · rename_i online
    split
    · exact upheld_marks.of_kept_nil (.refl _ _) (marksClear_put (fun _ => ⟨rfl, rfl⟩) i)
    · exact marksClear_put (fun n => absurd online n) i
  · exact i

theorem marksClear_seatOnline {s : State} (x : Seat) (a : Answer) (i : MarksClearUnlessOnline s) :
    MarksClearUnlessOnline (s.seatOnline x a) :=
  upheld_marks.of_kept_nil (.refl _ _) (marksClear_put (fun n => absurd rfl n) i)

theorem marksClear_setKeyFlag {s : State} (x : Seat) (k : Key) (i : MarksClearUnlessOnline s) : MarksClearUnlessOnline (s.setKeyFlag x k) := by
  have put := marksClear_put (x := x) (v := { s.tbc.seats.get x with flag := (s.tbc.seats.get x).flag.upd k true }) (i x) i
  unfold State.setKeyFlag
  dsimp only
  split
  · exact upheld_marks.emit _ put
  · exact put

theorem marksClear_acceptEdge {s : State} (x : Seat) (k : Key) (e : KeyEdge) (i : MarksClearUnlessOnline s) :
    MarksClearUnlessOnline (s.acceptEdge x k e) := by
  have flagged : MarksClearUnlessOnline (if qualifying k (s.settings.keyMode.get x) e then s.setKeyFlag x k else s) := by
    split
    · exact marksClear_setKeyFlag x k i
    · exact i
  have row : ∀ u, MarksClearUnlessOnline u → MarksClearUnlessOnline
      (if qualifying k (s.settings.keyMode.get x) e ∧ s.tbc.power = some .full ∧ (s.tbc.seats.get x).heldEnabled then
        (u.emit [keyEventRow x k e (s.settings.keyMode.get x)]).restartIdle else u) := by
    intro u iu
    split
    · exact upheld_marks.of_kept_nil (.refl _ _) iu
    · exact iu
  unfold State.acceptEdge
  dsimp only
  split
  · exact upheld_marks.emit _ (row _ flagged)
  · exact row _ flagged

theorem marksClear_conditionKey {s : State} (x : Seat) (raw : PerKey KeyLevel) (k : Key) (i : MarksClearUnlessOnline s) :
    MarksClearUnlessOnline (s.conditionKey x raw k) := by
  have tested : ∀ a c, MarksClearUnlessOnline (s.putTbcSeat x { s.tbc.seats.get x with accepted := a, candidate := c }) := fun a c =>
    marksClear_put (i x) i
  unfold State.conditionKey
  dsimp only
  split
  · split
    · exact marksClear_acceptEdge x k _ (tested _ _)
    · exact tested _ _
  · exact i

theorem marksClear_conditionKeys {s : State} (x : Seat) (raw : PerKey KeyLevel) (ks : List Key) (i : MarksClearUnlessOnline s) :
    MarksClearUnlessOnline (ks.foldl (fun s' k => s'.conditionKey x raw k) s) := by
  induction ks generalizing s with
  | nil => exact i
  | cons k ks ih => exact ih (marksClear_conditionKey x raw k i)

theorem marksClear_takeShareSignal {s : State} (x : Seat) (present : Bool) (i : MarksClearUnlessOnline s) :
    MarksClearUnlessOnline (s.takeShareSignal x present) := by
  have put : ∀ b, MarksClearUnlessOnline (s.putTbcSeat x { s.tbc.seats.get x with shareSignal := b }) := fun b => marksClear_put (i x) i
  unfold State.takeShareSignal
  dsimp only
  split
  · exact upheld_marks.emit _ (put _)
  · exact put _

theorem markAcked_clear : markAcked .clear = .clear := rfl

theorem markUnacked_clear : markUnacked .clear = .clear := rfl

theorem marksClear_takeAck {s : State} (x : Seat) (a : Ack) (i : MarksClearUnlessOnline s) : MarksClearUnlessOnline (s.takeAck x a) := by
  refine marksClear_put (fun n => ?_) i
  obtain ⟨ring, plate⟩ := i x n
  simp only [ring, plate, markAcked_clear, markUnacked_clear, ite_self, and_self]

theorem marksClear_accepted {s : State} (x : Seat) (a : Answer) (i : MarksClearUnlessOnline s) : MarksClearUnlessOnline (s.accepted x a) := by
  have counted : MarksClearUnlessOnline (s.putTbcSeat x { s.tbc.seats.get x with missed := 0 }) := marksClear_put (i x) i
  refine marksClear_takeAck x _ (marksClear_takeShareSignal x _ ?_)
  split
  · exact marksClear_conditionKeys x _ _ counted
  · exact marksClear_seatOnline x a counted

theorem marksSound_changed {t : TbcSeat} (sound : t.MarksSound) :
    ({ t with ringMark := markChanged t.presence t.ringMark } : TbcSeat).MarksSound ∧
      ({ t with plateMark := markChanged t.presence t.plateMark } : TbcSeat).MarksSound := by
  refine ⟨fun n => ?_, fun n => ?_⟩
  · simpa [markChanged, if_neg n] using sound n
  · simpa [markChanged, if_neg n] using sound n

theorem marksClear_takePower {s : State} (p : Power) (phase : Option Phase) (i : MarksClearUnlessOnline s) :
    MarksClearUnlessOnline { s with tbc := s.tbc.takePower p phase } := by
  intro x
  cases p with
  | quiet => simpa [Tbc.takePower, Tbc.withFeeds] using i x
  | sleep => simp [Tbc.takePower, TbcSeat.unpowered]
  | full => exact i x
  | waking => exact i x

theorem marksClear_powerStateReport {s : State} (b : BlockId) (p : Power) (phase : Option Phase) (i : MarksClearUnlessOnline s) :
    MarksClearUnlessOnline (s.after (.powerStateReport b p phase)) := by
  rw [after_powerStateReport]
  have i := upheld_marks.taking (.powerStateReport b p phase) i
  have others : b ≠ .tbc → MarksClearUnlessOnline ((s.taking (.powerStateReport b p phase)).blockTakesPower b p phase) := fun n =>
    upheld_marks.of_kept (kept_blockTakesPower _ b p phase) (by cases b <;> simp [powerTouches] at n ⊢) i
  cases b with
  | tbc => exact marksClear_takePower p phase i
  | _ => exact others (by simp)

theorem marksClear_after (c : Instr) (s : State) (h : .marks ∈ touches c) (i : MarksClearUnlessOnline s) :
    MarksClearUnlessOnline (s.after c) := by
  cases c with
  | reset d b =>
    refine upheld_marks.of_kept (kept_afterLoading s d b) (by simp) fun x _ => ?_
    simp only [State.loaded, Tab.get_all, and_self]
  | poll b =>
    refine holds_after rfl ?_
    split
    · split
      · exact upheld_marks.of_kept_nil (kept_enterFull _) (marksClear_pollOnce b i)
      · exact marksClear_pollOnce b i
    · exact i
  | acceptedAnswer x a =>
    refine holds_after rfl ?_
    split
    · split
      · exact marksClear_missed x i
      · exact marksClear_accepted x a i
    · exact i
  | missedAnswer x =>
    refine holds_after rfl ?_
    split
    · exact marksClear_missed x i
    · exact i
  | ringChange x => exact holds_after rfl (marksClear_put (marksSound_changed (i x)).1 (upheld_marks.taking _ i))
  | nameplateChange x => exact holds_after rfl (marksClear_put (marksSound_changed (i x)).2 (upheld_marks.taking _ i))
  | powerStateReport b p phase => exact marksClear_powerStateReport b p phase i
  | _ => simp [touches] at h

/-- Settles O57: only a few commands change a gain, the clock or a mark, and each of them keeps its range. -/
theorem stepsKeepTheRanges : Obligations.StepsKeepTheRanges := by
  intro s t h
  refine ⟨?gains, ?clock, ?marks⟩
  case gains => exact step_keeps upheld_gains (by simp) (fun c s m => gainsInRange_after c s (by simpa using m)) h
  case clock => exact step_keeps upheld_time (by simp) (fun c s m => clockInRange_after c s (by simpa using m)) h
  case marks => exact step_keeps upheld_marks (by simp) (fun c s m => marksClear_after c s (by simpa using m)) h

end Sys2Proof.Machine
end

section
/-! PROOF. The bounds of the ports and the soundness of the write queue, kept by every step. -/

namespace Sys2Proof.Machine

open Sys2Proof

/-! ## The ports (R178, R179, R180) -/

theorem upheld_places : Upheld [.places] PortsInBounds := by
  intro s t same i p
  obtain ⟨inHand, events⟩ := same _ (.head _) p
  simp only [PortState.places, inHand, events]
  exact i p

theorem portsInBounds_putPort {s : State} {p : Port} {v : PortState} (bounded : v.Bounded) (i : PortsInBounds s) :
    PortsInBounds (s.putPort p v) := by
  intro q
  simp only [State.port, State.putPort, Tab.get_upd]
  split
  · exact bounded
  · exact i q

theorem portsInBounds_answer {s : State} {p : Port} (bytes : List Byte) (i : PortsInBounds s) : PortsInBounds (s.answer p bytes) :=
  portsInBounds_putPort (i p) i

/-- A port with a place for one more command (R178). -/
def PortState.HasPlace (t : PortState) : Prop := t.inHand.length + 1 ≤ 8 ∧ t.places + 1 ≤ 32

theorem hasPlace_of_not_isFull {t : PortState} (h : ¬t.isFull = true) : t.HasPlace := by
  simp only [PortState.isFull, Bool.or_eq_true, decide_eq_true_eq] at h
  unfold PortState.HasPlace
  omega

theorem PortState.HasPlace.taken {t : PortState} (room : t.HasPlace) (h : InHand) :
    ({ t with inHand := t.inHand ++ [h] } : PortState).Bounded := by
  obtain ⟨inHand, places⟩ := room
  simp only [PortState.Bounded, PortState.places, List.length_append, List.length_singleton] at *
  omega

theorem PortState.HasPlace.appended {t : PortState} (room : t.HasPlace) (e : EventRecord) : (t.append e).Bounded := by
  obtain ⟨inHand, places⟩ := room
  refine ⟨?_, ?_⟩
  · rw [append_inHand]
    omega
  · rw [append_places]
    omega

theorem portsInBounds_handOver {s : State} {p : Port} (room : (s.port p).HasPlace) (h : InHand) (c : Command) (i : PortsInBounds s) :
    PortsInBounds (s.handOver p h c) := by
  have taken := fun h => portsInBounds_putPort (p := p) (room.taken h) i
  unfold State.handOver
  split
  · refine upheld_places.of_kept_nil ?_ (taken { h with waitsFull := true })
    exact .ite (fun _ => kept_emit _ _) fun _ => .refl _ _
  · refine upheld_places.of_kept_nil ?_ (taken h)
    exact (kept_emit _ _).trans (.ite (fun _ => .refl _ _) fun _ => .refl _ _)

theorem portsInBounds_completeAtOnce {s : State} {p : Port} (room : (s.port p).HasPlace) (h : InHand) (result : Result)
    (i : PortsInBounds s) : PortsInBounds (s.completeAtOnce p h result) := portsInBounds_putPort (room.appended _) i

theorem portsInBounds_take {s : State} {p : Port} (room : (s.port p).HasPlace) (c : CommandRecord) (i : PortsInBounds s) :
    PortsInBounds (s.take p c) := by
  have tagged : ∀ u : State, u = { s with cph := { s.cph with nextTag := s.cph.nextTag + 1 } } → (u.port p).HasPlace ∧ PortsInBounds u := by
    rintro u rfl
    exact ⟨room, i⟩
  obtain ⟨room, i⟩ := tagged _ rfl
  unfold State.take
  dsimp only
  split
  · exact portsInBounds_completeAtOnce room _ _ i
  · split
    · exact portsInBounds_handOver room _ _ i
    · exact portsInBounds_completeAtOnce room _ _ i

theorem portsInBounds_resetPort {s : State} (p : Port) (i : PortsInBounds s) : PortsInBounds (s.resetPort p) := by
  refine upheld_places.of_kept_nil (kept_freeAuthorities _ _ _ _) (portsInBounds_putPort ?_ i)
  simp [PortState.Bounded, PortState.places]

theorem portsInBounds_answerPost {s : State} (p : Port) (f : Frame) (i : PortsInBounds s) : PortsInBounds (s.answerPost p f) := by
  unfold State.answerPost
  split
  · exact portsInBounds_answer _ i
  · split
    · split
      · exact portsInBounds_answer _ i
      · rename_i free
        refine portsInBounds_take ?_ _ (portsInBounds_answer _ i)
        have room := hasPlace_of_not_isFull free
        simpa only [PortState.HasPlace, PortState.places, State.port, State.answer, State.putPort, Tab.get_upd_self] using room
    · exact portsInBounds_answer _ i

theorem portsInBounds_answerFetch {s : State} (p : Port) (f : Frame) (i : PortsInBounds s) : PortsInBounds (s.answerFetch p f) := by
  unfold State.answerFetch
  split
  · exact portsInBounds_answer _ i
  · split
    · split
      · exact portsInBounds_answer _ i
      · rename_i e rest events
        refine portsInBounds_answer _ (portsInBounds_putPort ?_ i)
        obtain ⟨inHand, places⟩ := i p
        simp only [PortState.Bounded, PortState.places, events, List.length_cons] at *
        omega
    · exact portsInBounds_answer _ i

theorem portsInBounds_after (c : Instr) (s : State) (h : .places ∈ touches c) (i : PortsInBounds s) : PortsInBounds (s.after c) := by
  cases c with
  | reset d b =>
    refine upheld_places.of_kept (kept_afterLoading s d b) (by simp) fun p => ?_
    simp only [State.port, State.loaded, Tab.get_all, PortState.places]
    decide
  | notice k payload =>
    refine holds_after rfl fun p => ?_
    simp only [State.port, Tab.get_gen]
    exact offered_bounded k payload (i p)
  | blockResult r result payload => exact holds_after rfl (portsInBounds_putPort (completed_bounded _ _ _ (i _)) (upheld_places.taking _ i))
  | post p f =>
    refine holds_after rfl ?_
    split
    · exact portsInBounds_answer _ i
    · exact portsInBounds_answerPost p f i
  | fetch p f =>
    refine holds_after rfl ?_
    split
    · exact portsInBounds_answer _ i
    · exact portsInBounds_answerFetch p f i
  | portReset p f =>
    refine holds_after rfl ?_
    split
    · exact portsInBounds_resetPort p i
    · exact i
  | _ => simp [touches] at h

/-! ## The write queue (R128, R129, R134) -/

theorem upheld_writes : Upheld [.writes] StoreQueueSound := by
  intro s t same i
  obtain ⟨queue, writing⟩ := same _ (.head _)
  unfold StoreQueueSound
  rw [queue, writing]
  exact i

theorem tornSlots_nodup (d : Durable) : d.tornSlots.Nodup := by
  have bookings : ((allBSlots.filter fun i => (d.bookings.get i).isTorn).map StoreSlot.booking).Nodup :=
    ((List.nodup_finRange 32).filter _).map fun _ _ e => StoreSlot.booking.inj e
  have participants : (((List.finRange 96).filter fun p => (d.participants.get p).isTorn).map StoreSlot.participant).Nodup :=
    ((List.nodup_finRange 96).filter _).map fun _ _ e => StoreSlot.participant.inj e
  have settings : (if d.settings.isTorn then [StoreSlot.settings] else []).Nodup := by
    split <;> simp
  refine List.nodup_append.2 ⟨List.nodup_append.2 ⟨bookings, participants, ?_⟩, settings, ?_⟩
  · intro a ma b mb e
    obtain ⟨_, -, rfl⟩ := List.mem_map.1 ma
    obtain ⟨_, -, rfl⟩ := List.mem_map.1 mb
    cases e
  · intro a ma b mb e
    obtain rfl : b = .settings := by
      split at mb <;> simp_all
    subst e
    simp at ma

/-- The store as the scan leaves it (R134). -/
theorem scan_sound (b : Bks) : b.scan.QueueSound := by
  refine forget_sound _ _ ⟨tornSlots_nodup _, ?_⟩
  simp [Durable.scan]

theorem loaded_bks (s : State) (d : ResetDetectors) (roomRuns : Bool) : (s.loaded d roomRuns).bks = s.bks.scan := by
  simp only [State.loaded]

theorem queueSound_scheduled {s : State} (i : StoreQueueSound s) : StoreQueueSound s.scheduled :=
  (Scheduled.refl s).startEvaluation.sound i

/-- Steps 3 to 6 of the start-up sequence. -/
theorem queueSound_started {s : State} (roomRuns : Bool) (i : StoreQueueSound s) :
    StoreQueueSound (s.clocked roomRuns).scheduled.started :=
  upheld_writes.of_kept_nil (kept_started _) (queueSound_scheduled (upheld_writes.of_kept_nil (kept_clocked s roomRuns) i))

theorem queueSound_reset (s : State) (d : ResetDetectors) (roomRuns : Bool) : StoreQueueSound (s.after (.reset d roomRuns)) := by
  have loaded : StoreQueueSound (s.loaded d roomRuns) := by
    rw [storeQueueSound_iff, loaded_bks]
    exact scan_sound s.bks
  rw [← after_of_exec (exec_reset s d roomRuns)]
  exact queueSound_started roomRuns loaded

theorem queueSound_secondEvent {s : State} (i : StoreQueueSound s) : StoreQueueSound (s.after .secondEvent) := by
  have lost : StoreQueueSound ({ s with msc := { s.msc with clock := .lost } } : State).tellClock := i
  have ticked : StoreQueueSound ({ s with msc := s.msc.tick } : State).speechSecond :=
    upheld_writes.of_kept (kept_speechSecond (ps := [.floor]) (by simp) _) (by simp) i
  refine holds_after rfl ?_
  split
  · exact i
  · split
    · exact lost
    · dsimp only
      split
      · exact (Scheduled.refl _).evaluate.sound ticked
      · exact ticked

theorem queueSound_after (c : Instr) (s : State) (h : .writes ∈ touches c) (i : StoreQueueSound s) : StoreQueueSound (s.after c) := by
  by_cases store : touches c = [.writes]
  · exact (stored_storeCommand c s store).2 i
  · cases c with
    | reset d b => exact queueSound_reset s d b
    | secondEvent => exact queueSound_secondEvent i
    | setClock r day second =>
      have taking := upheld_writes.taking (.setClock r day second) i
      refine holds_after rfl ?_
      split
      · exact upheld_writes.emit _ taking
      · split
        · exact upheld_writes.emit _ taking
        · exact upheld_writes.emit _ (((Scheduled.refl _).catchUp false).sound i)
    | _ => simp [touches] at h store

/-- Settles O58: only a few commands change a port's places, and only the store's and the scheduler's change the write queue. -/
theorem stepsKeepTheQueues : Obligations.StepsKeepTheQueues := by
  intro s t h
  refine ⟨?ports, ?writes⟩
  case ports => exact step_keeps upheld_places (by simp) (fun c s m => portsInBounds_after c s (by simpa using m)) h
  case writes => exact step_keeps upheld_writes (by simp) (fun c s m => queueSound_after c s (by simpa using m)) h

end Sys2Proof.Machine
end

section
/-! PROOF. The soundness of the floor's collections through every operation of chapter 2. `FloorCore` is what the soundness asks beside the
open limit and the override set, which an eviction and the begin of an override break on their way. -/

namespace Sys2Proof.Machine

open Sys2Proof

/-! ## Who speaks and who waits -/

theorem speaks_iff {f : Flc} {x : Seat} : f.speaks x = true ↔ ∃ e ∈ f.speakers, e.seat = x := by simp [Flc.speaks]

theorem waits_iff {f : Flc} {x : Seat} : f.waits x = true ↔ ∃ q ∈ f.queue, q.seat = x := by simp [Flc.waits]

theorem speaks_of_mem {f : Flc} {e : SpeakerEntry} (m : e ∈ f.speakers) : f.speaks e.seat = true := speaks_iff.2 ⟨e, m, rfl⟩

theorem waits_of_mem {f : Flc} {q : QueueEntry} (m : q ∈ f.queue) : f.waits q.seat = true := waits_iff.2 ⟨q, m, rfl⟩

theorem map_seat_mixSpeakers (f : Flc) : f.mixSpeakers.map (·.1) = f.speakers.map (·.seat) := by
  simp [Flc.mixSpeakers, Function.comp_def]

theorem mem_mixSpeakers {f : Flc} {e : SpeakerEntry} (m : e ∈ f.speakers) : (e.seat, e.priority) ∈ f.mixSpeakers :=
  List.mem_map.2 ⟨e, m, rfl⟩

/-- Fewer speakers, or the same with other fields of their entries. -/
theorem entry_of_sublist {f g : Flc} (sub : g.mixSpeakers.Sublist f.mixSpeakers) {e : SpeakerEntry} (m : e ∈ g.speakers) :
    ∃ d ∈ f.speakers, d.seat = e.seat ∧ d.priority = e.priority := by
  obtain ⟨d, md, eq⟩ := List.mem_map.1 (sub.subset (mem_mixSpeakers m))
  exact ⟨d, md, (Prod.mk.inj eq).1, (Prod.mk.inj eq).2⟩

theorem waiter_of_sublist {f g : Flc} (sub : (g.queue.map (·.seat)).Sublist (f.queue.map (·.seat))) {q : QueueEntry} (m : q ∈ g.queue) :
    ∃ p ∈ f.queue, p.seat = q.seat := List.mem_map.1 (sub.subset (List.mem_map_of_mem m))

/-! ## The parts of the soundness -/

/-- The soundness of the collections, without the open limit and the override set. -/
structure FloorCore (f : Flc) : Prop where
  speakersOnce : (f.speakers.map (·.seat)).Nodup
  queueOnce : (f.queue.map (·.seat)).Nodup
  apart : ∀ x, f.speaks x = true → f.waits x = false
  withinPlaces : f.queue.length ≤ 24
  takesPart : ∀ x, f.speaks x = true ∨ f.waits x = true → f.takesPart x = true
  priority : ∀ e ∈ f.speakers, e.priority = hasPriority (f.role e.seat)

/-- The list keeps the open limit (R21). -/
def WithinLimit (f : Flc) : Prop := 1 ≤ f.limit → f.speakers.length ≤ f.limit

/-- Who overrides speaks, with priority (R31, R32). -/
def Overriding (f : Flc) : Prop := ∀ x ∈ f.overrides, hasPriority (f.role x) = true ∧ f.speaks x = true

theorem floorSound_iff (f : Flc) : FloorSound f ↔ FloorCore f ∧ WithinLimit f ∧ Overriding f := by
  constructor
  · intro h
    refine ⟨⟨h.speakersOnce, h.queueOnce, fun x sp => ?_, h.withinPlaces, fun x part => ?_, h.priority⟩, h.withinLimit, h.overriding⟩
    · obtain ⟨e, m, rfl⟩ := speaks_iff.1 sp
      exact h.apart e m
    · rw [Flc.takesPart, Bool.and_eq_true]
      rcases part with sp | w
      · obtain ⟨e, m, rfl⟩ := speaks_iff.1 sp
        exact ⟨h.enabled.1 e m, h.online.1 e m⟩
      · obtain ⟨q, m, rfl⟩ := waits_iff.1 w
        exact ⟨h.enabled.2 q m, h.online.2 q m⟩
  · rintro ⟨h, limit, overriding⟩
    have part : ∀ x, f.speaks x = true ∨ f.waits x = true → (f.seats.get x).enabled = true ∧ (f.seats.get x).online = true := fun x p => by
      simpa [Flc.takesPart] using h.takesPart x p
    exact
      { speakersOnce := h.speakersOnce
        queueOnce := h.queueOnce
        apart := fun e m => h.apart _ (speaks_of_mem m)
        withinLimit := limit
        withinPlaces := h.withinPlaces
        enabled := ⟨fun e m => (part _ (.inl (speaks_of_mem m))).1, fun q m => (part _ (.inr (waits_of_mem m))).1⟩
        online := ⟨fun e m => (part _ (.inl (speaks_of_mem m))).2, fun q m => (part _ (.inr (waits_of_mem m))).2⟩
        priority := h.priority
        overriding := overriding }

/-- A floor with empty collections is sound whatever its seats are. -/
theorem floorSound_of_empty {f : Flc} (speakers : f.speakers = []) (queue : f.queue = []) (overrides : f.overrides = []) : FloorSound f := by
  refine (floorSound_iff f).2 ⟨⟨?_, ?_, ?_, ?_, ?_, ?_⟩, ?_, ?_⟩ <;> simp [speakers, queue, overrides, WithinLimit, Overriding, Flc.speaks, Flc.waits]

/-! ## Smaller collections -/

theorem FloorCore.shrink {f g : Flc} (h : FloorCore f) (speakers : g.mixSpeakers.Sublist f.mixSpeakers)
    (queue : (g.queue.map (·.seat)).Sublist (f.queue.map (·.seat)))
    (part : ∀ x, g.speaks x = true ∨ g.waits x = true → f.takesPart x = true → g.takesPart x = true)
    (role : ∀ x, g.speaks x = true → g.role x = f.role x) : FloorCore g := by
  have spoke : ∀ x, g.speaks x = true → f.speaks x = true := by
    intro x sp
    obtain ⟨e, m, rfl⟩ := speaks_iff.1 sp
    obtain ⟨d, md, eq, -⟩ := entry_of_sublist speakers m
    exact speaks_iff.2 ⟨d, md, eq⟩
  have waited : ∀ x, g.waits x = true → f.waits x = true := by
    intro x w
    obtain ⟨q, m, rfl⟩ := waits_iff.1 w
    obtain ⟨p, mp, eq⟩ := waiter_of_sublist queue m
    exact waits_iff.2 ⟨p, mp, eq⟩
  refine ⟨?once, h.queueOnce.sublist queue, fun x sp => ?apart, ?places, fun x p => ?part, fun e m => ?priority⟩
  case once =>
    have sub := speakers.map (·.1)
    rw [map_seat_mixSpeakers, map_seat_mixSpeakers] at sub
    exact h.speakersOnce.sublist sub
  case apart =>
    by_contra w
    exact absurd (waited x (by simpa using w)) (by simp [h.apart x (spoke x sp)])
  case places =>
    have := queue.length_le
    simp only [List.length_map] at this
    exact this.trans h.withinPlaces
  case part => exact part x p (h.takesPart x (p.imp (spoke x) (waited x)))
  case priority =>
    obtain ⟨d, md, seat, priority⟩ := entry_of_sublist speakers m
    rw [← priority, h.priority d md, seat, role _ (speaks_of_mem m)]

theorem FloorSound.shrink {f g : Flc} (h : FloorSound f) (speakers : g.mixSpeakers.Sublist f.mixSpeakers)
    (queue : (g.queue.map (·.seat)).Sublist (f.queue.map (·.seat))) (limit : g.limit = f.limit)
    (part : ∀ x, g.speaks x = true ∨ g.waits x = true → f.takesPart x = true → g.takesPart x = true)
    (role : ∀ x, g.speaks x = true → g.role x = f.role x)
    (overrides : ∀ x ∈ g.overrides, x ∈ f.overrides ∧ g.speaks x = true) : FloorSound g := by
  obtain ⟨core, within, ov⟩ := (floorSound_iff f).1 h
  refine (floorSound_iff g).2 ⟨core.shrink speakers queue part role, fun l => ?_, fun x m => ?_⟩
  · have := speakers.length_le
    simp only [Flc.mixSpeakers, List.length_map] at this
    rw [limit] at l ⊢
    exact this.trans (within l)
  · obtain ⟨old, sp⟩ := overrides x m
    exact ⟨role x sp ▸ (ov x old).1, sp⟩

/-- The collections as they were, over other seats. -/
theorem FloorSound.seats {f g : Flc} (h : FloorSound f) (speakers : g.speakers = f.speakers) (queue : g.queue = f.queue)
    (overrides : g.overrides = f.overrides) (limit : g.limit = f.limit)
    (part : ∀ x, f.speaks x = true ∨ f.waits x = true → f.takesPart x = true → g.takesPart x = true)
    (role : ∀ x, f.speaks x = true → g.role x = f.role x) : FloorSound g := by
  have speaks : ∀ x, g.speaks x = f.speaks x := fun x => by rw [Flc.speaks, speakers, Flc.speaks]
  have waits : ∀ x, g.waits x = f.waits x := fun x => by rw [Flc.waits, queue, Flc.waits]
  refine h.shrink (by rw [Flc.mixSpeakers, speakers, Flc.mixSpeakers]) (by rw [queue]) limit (fun x p => part x ?_) (fun x sp => role x ?_)
    fun x m => ?_
  · rwa [speaks, waits] at p
  · rwa [speaks] at sp
  · rw [overrides] at m
    exact ⟨m, speaks x ▸ (h.overriding x m).2⟩

/-- A seat's fields put back: whoever stands in a collection still takes part, and a speaker keeps its role. -/
theorem floorSound_put {f : Flc} {x : Seat} {v : FlcSeat} (h : FloorSound f)
    (part : f.speaks x = true ∨ f.waits x = true → f.takesPart x = true → v.enabled = true ∧ v.online = true)
    (role : f.speaks x = true → v.role = f.role x) : FloorSound (f.put x v) := by
  refine h.seats rfl rfl rfl rfl (fun y p t => ?_) fun y sp => ?_
  · simp only [Flc.takesPart, Flc.put, Tab.get_upd] at *
    split
    · rename_i e
      subst e
      simp only [part p t, Bool.and_self]
    · exact t
  · simp only [Flc.role, Flc.put, Tab.get_upd] at *
    split
    · rename_i e
      subst e
      exact role sp
    · rfl

/-- Fields of a seat that the soundness does not read. -/
theorem floorSound_mark {f : Flc} {x : Seat} {v : FlcSeat} (h : FloorSound f) (enabled : v.enabled = (f.seats.get x).enabled)
    (online : v.online = (f.seats.get x).online) (role : v.role = f.role x) : FloorSound (f.put x v) :=
  floorSound_put h (fun _ t => by simpa [enabled, online, Flc.takesPart] using t) fun _ => role

/-- Such fields of every seat. -/
theorem floorSound_marks {f g : Flc} (h : FloorSound f) (speakers : g.speakers = f.speakers) (queue : g.queue = f.queue)
    (overrides : g.overrides = f.overrides) (limit : g.limit = f.limit)
    (fields : ∀ x, (g.seats.get x).enabled = (f.seats.get x).enabled ∧ (g.seats.get x).online = (f.seats.get x).online ∧ g.role x = f.role x) :
    FloorSound g := by
  refine h.seats speakers queue overrides limit (fun x _ t => ?_) fun x _ => (fields x).2.2
  rw [Flc.takesPart, (fields x).1, (fields x).2.1]
  exact t

/-! ## Closing and withdrawing (R21, R22, R32) -/

theorem speaks_closeSeat {f : Flc} {x y : Seat} : (f.closeSeat x).speaks y = true ↔ f.speaks y = true ∧ y ≠ x := by
  simp only [speaks_iff, Flc.closeSeat, List.mem_filter, decide_eq_true_eq]
  constructor
  · rintro ⟨e, ⟨m, n⟩, rfl⟩
    exact ⟨⟨e, m, rfl⟩, n⟩
  · rintro ⟨⟨e, m, rfl⟩, n⟩
    exact ⟨e, ⟨m, n⟩, rfl⟩

theorem waits_withdraw {f : Flc} {x y : Seat} : (f.withdraw x).waits y = true ↔ f.waits y = true ∧ y ≠ x := by
  simp only [waits_iff, Flc.withdraw, List.mem_filter, decide_eq_true_eq]
  constructor
  · rintro ⟨e, ⟨m, n⟩, rfl⟩
    exact ⟨⟨e, m, rfl⟩, n⟩
  · rintro ⟨⟨e, m, rfl⟩, n⟩
    exact ⟨e, ⟨m, n⟩, rfl⟩

theorem mixSpeakers_filter_sublist (f : Flc) (p : SpeakerEntry → Bool) :
    ({ f with speakers := f.speakers.filter p } : Flc).mixSpeakers.Sublist f.mixSpeakers := List.filter_sublist.map _

theorem FloorCore.closeSeat {f : Flc} (h : FloorCore f) (x : Seat) : FloorCore (f.closeSeat x) :=
  h.shrink (mixSpeakers_filter_sublist f _) (List.Sublist.refl _) (fun _ _ t => t) fun _ _ => rfl

theorem overriding_closeSeat {f : Flc} (h : Overriding f) (x : Seat) : Overriding (f.closeSeat x) := by
  intro y m
  simp only [Flc.closeSeat, List.mem_filter, decide_eq_true_eq] at m
  exact ⟨(h y m.1).1, speaks_closeSeat.2 ⟨(h y m.1).2, m.2⟩⟩

theorem floorSound_closeSeat {f : Flc} (h : FloorSound f) (x : Seat) : FloorSound (f.closeSeat x) := by
  refine h.shrink (mixSpeakers_filter_sublist f _) (List.Sublist.refl _) rfl (fun _ _ t => t) (fun _ _ => rfl) fun y m => ?_
  simp only [Flc.closeSeat, List.mem_filter, decide_eq_true_eq] at m
  exact ⟨m.1, speaks_closeSeat.2 ⟨(h.overriding y m.1).2, m.2⟩⟩

/-- Part of the queue dropped. -/
theorem floorSound_queue {f : Flc} (h : FloorSound f) {l : List QueueEntry} (sub : l.Sublist f.queue) : FloorSound { f with queue := l } :=
  h.shrink (List.Sublist.refl _) (sub.map _) rfl (fun _ _ t => t) (fun _ _ => rfl) fun y m => ⟨m, (h.overriding y m).2⟩

theorem floorSound_withdraw {f : Flc} (h : FloorSound f) (x : Seat) : FloorSound (f.withdraw x) := floorSound_queue h List.filter_sublist

theorem floorSound_refuse {f : Flc} (h : FloorSound f) (x : Seat) : FloorSound (f.refuse x) := floorSound_mark h rfl rfl rfl

/-- The entries with other origins, times or marks, but for the same seats with the same priority. -/
theorem floorSound_entries {f : Flc} (h : FloorSound f) {l : List SpeakerEntry}
    (same : l.map (fun e => (e.seat, e.priority)) = f.mixSpeakers) : FloorSound { f with speakers := l } := by
  have speaks : ∀ x, f.speaks x = true → ({ f with speakers := l } : Flc).speaks x = true := by
    intro x sp
    obtain ⟨e, m, rfl⟩ := speaks_iff.1 sp
    have m' := mem_mixSpeakers m
    rw [← same, List.mem_map] at m'
    obtain ⟨d, md, eq⟩ := m'
    exact speaks_iff.2 ⟨d, md, (Prod.mk.inj eq).1⟩
  refine h.shrink ?_ (List.Sublist.refl _) rfl (fun _ _ t => t) (fun _ _ => rfl) fun y m => ⟨m, speaks y (h.overriding y m).2⟩
  rw [Flc.mixSpeakers, same]

/-- Only the entries with priority left (R31, R51): who overrides is among them. -/
theorem floorSound_priorityOnly {f : Flc} (h : FloorSound f) : FloorSound { f with speakers := f.speakers.filter (·.priority) } := by
  refine h.shrink (mixSpeakers_filter_sublist f _) (List.Sublist.refl _) rfl (fun _ _ t => t) (fun _ _ => rfl) fun y m => ⟨m, ?_⟩
  obtain ⟨priority, sp⟩ := h.overriding y m
  obtain ⟨e, me, rfl⟩ := speaks_iff.1 sp
  exact speaks_iff.2 ⟨e, List.mem_filter.2 ⟨me, (h.priority e me).trans priority⟩, rfl⟩

/-! ## Opening and queueing (R21, R22) -/

theorem speaks_openSeat {f : Flc} {e : FloorEnv} {o : Origin} {x y : Seat} :
    (f.openSeat e x o).speaks y = true ↔ f.speaks y = true ∨ y = x := by
  simp only [Flc.speaks, Flc.openSeat, List.any_append, Bool.or_eq_true, List.any_cons, List.any_nil, Bool.or_false, decide_eq_true_eq]
  exact or_congr_right eq_comm

theorem waits_openSeat {f : Flc} {e : FloorEnv} {o : Origin} {x y : Seat} :
    (f.openSeat e x o).waits y = true ↔ f.waits y = true ∧ y ≠ x := waits_withdraw

theorem takesPart_openSeat (f : Flc) (e : FloorEnv) (o : Origin) (x y : Seat) : (f.openSeat e x o).takesPart y = f.takesPart y := by
  simp only [Flc.takesPart, Flc.openSeat, Tab.get_upd]
  split
  · rename_i eq
    rw [eq]
  · rfl

theorem FloorCore.openSeat {f : Flc} (h : FloorCore f) (e : FloorEnv) (o : Origin) {x : Seat} (part : f.takesPart x = true)
    (silent : f.speaks x = false) : FloorCore (f.openSeat e x o) := by
  refine ⟨?once, ?queue, fun y sp => ?apart, ?places, fun y p => ?part, fun d m => ?priority⟩
  case once =>
    have fresh : x ∉ f.speakers.map (·.seat) := fun m => by
      obtain ⟨d, md, eq⟩ := List.mem_map.1 m
      exact absurd (speaks_iff.2 ⟨d, md, eq⟩) (by simp [silent])
    simpa [Flc.openSeat, List.nodup_append] using ⟨h.speakersOnce, fun d md eq => fresh (List.mem_map.2 ⟨d, md, eq⟩)⟩
  case queue => exact h.queueOnce.sublist (List.filter_sublist.map _)
  case apart =>
    by_contra w
    obtain ⟨w, n⟩ := waits_openSeat.1 (by simpa using w)
    rcases speaks_openSeat.1 sp with sp | rfl
    · exact absurd w (by simp [h.apart y sp])
    · exact n rfl
  case places => exact (List.length_filter_le _ _).trans h.withinPlaces
  case part =>
    rw [takesPart_openSeat]
    rw [speaks_openSeat, waits_openSeat] at p
    rcases p with (sp | rfl) | ⟨w, -⟩
    · exact h.takesPart y (.inl sp)
    · exact part
    · exact h.takesPart y (.inr w)
  case priority =>
    rw [openSeat_role]
    rcases List.mem_append.1 m with m | m
    · exact h.priority d m
    · rw [List.mem_singleton.1 m]

theorem overriding_openSeat {f : Flc} (h : Overriding f) (e : FloorEnv) (o : Origin) (x : Seat) : Overriding (f.openSeat e x o) := by
  intro y m
  rw [openSeat_role]
  exact ⟨(h y m).1, speaks_openSeat.2 (.inl (h y m).2)⟩

theorem floorSound_openSeat {f : Flc} (h : FloorSound f) (e : FloorEnv) (o : Origin) {x : Seat} (part : f.takesPart x = true)
    (silent : f.speaks x = false) (room : f.hasRoom = true) : FloorSound (f.openSeat e x o) := by
  obtain ⟨core, -, ov⟩ := (floorSound_iff f).1 h
  refine (floorSound_iff _).2 ⟨core.openSeat e o part silent, fun _ => ?_, overriding_openSeat ov e o x⟩
  simpa [Flc.openSeat, Flc.hasRoom] using room

theorem floorSound_enqueue {f : Flc} (h : FloorSound f) (e : FloorEnv) (o : Origin) {x : Seat} (part : f.takesPart x = true)
    (silent : f.speaks x = false) (out : f.waits x = false) (room : f.queue.length < 24) : FloorSound (f.enqueue e x o) := by
  obtain ⟨core, within, ov⟩ := (floorSound_iff f).1 h
  have waits : ∀ y, (f.enqueue e x o).waits y = true ↔ f.waits y = true ∨ y = x := fun y => by
    simp only [Flc.waits, Flc.enqueue, List.any_append, Bool.or_eq_true, List.any_cons, List.any_nil, Bool.or_false, decide_eq_true_eq]
    exact or_congr_right eq_comm
  have takes : ∀ y, (f.enqueue e x o).takesPart y = f.takesPart y := fun y => by
    simp only [Flc.takesPart, Flc.enqueue, Tab.get_upd]
    split
    · rename_i eq
      rw [eq]
    · rfl
  have role : ∀ y, (f.enqueue e x o).role y = f.role y := fun y => by
    simp only [Flc.role, Flc.enqueue, Tab.get_upd]
    split
    · rename_i eq
      rw [eq]
    · rfl
  refine (floorSound_iff _).2 ⟨⟨core.speakersOnce, ?queue, fun y sp => ?apart, ?places, fun y p => ?part, fun d m => ?priority⟩, within, fun y m => ?ov⟩
  case queue =>
    have fresh : x ∉ f.queue.map (·.seat) := fun m => by
      obtain ⟨d, md, eq⟩ := List.mem_map.1 m
      exact absurd (waits_iff.2 ⟨d, md, eq⟩) (by simp [out])
    simpa [Flc.enqueue, List.nodup_append] using ⟨core.queueOnce, fun d md eq => fresh (List.mem_map.2 ⟨d, md, eq⟩)⟩
  case apart =>
    have spoke : f.speaks y = true := sp
    by_contra w
    rcases (waits y).1 (by simpa using w) with w | rfl
    · exact absurd w (by simp [core.apart y spoke])
    · exact absurd spoke (by simp [silent])
  case places => simpa [Flc.enqueue] using room
  case part =>
    rw [takes]
    rw [waits] at p
    rcases p with sp | w | rfl
    · exact core.takesPart y (.inl sp)
    · exact core.takesPart y (.inr w)
    · exact part
  case priority => rw [role]; exact core.priority d m
  case ov => rw [role]; exact ov y m

theorem floorSound_enqueueOrRefuse {f : Flc} (h : FloorSound f) (e : FloorEnv) (o : Origin) {x : Seat} (part : f.takesPart x = true)
    (silent : f.speaks x = false) (out : f.waits x = false) : FloorSound (f.enqueueOrRefuse e x o) := by
  unfold Flc.enqueueOrRefuse
  split
  · exact floorSound_enqueue h e o part silent out ‹_›
  · exact floorSound_refuse h x

/-! ## Eviction (R23) -/

/-- Whoever speaks can be evicted: an entry with priority is the CHAIR's or the VICE's. -/
theorem victim_of_speakers {f : Flc} (h : FloorCore f) (some_ : f.speakers ≠ []) : ∃ x, f.victim = some x ∧ f.speaks x = true := by
  obtain ⟨e, rest, eq⟩ := List.exists_cons_of_ne_nil some_
  have me : e ∈ f.speakers := by simp [eq]
  unfold Flc.victim
  split
  · rename_i d hd
    exact ⟨_, rfl, speaks_of_mem (List.mem_of_find?_eq_some hd)⟩
  · rename_i none_
    split
    · rename_i d hd
      exact ⟨_, rfl, speaks_of_mem (List.mem_of_find?_eq_some hd)⟩
    · rename_i noVice
      have priority : hasPriority (f.role e.seat) = true := by
        rw [← h.priority e me]
        simpa using List.find?_eq_none.1 none_ e me
      have vice : f.role e.seat ≠ .vice := by simpa using List.find?_eq_none.1 noVice e me
      have chair : f.role e.seat = .chair := by simpa [hasPriority, vice] using priority
      cases hc : f.speakers.find? (fun e => f.role e.seat = .chair) with
      | none => exact absurd chair (by simpa using List.find?_eq_none.1 hc e me)
      | some d => exact ⟨d.seat, rfl, speaks_of_mem (List.mem_of_find?_eq_some hc)⟩

theorem evict_eq {f : Flc} {x : Seat} (h : f.victim = some x) : f.evict = f.closeSeat x := by simp [Flc.evict, h]

theorem FloorCore.evict {f : Flc} (h : FloorCore f) : FloorCore f.evict := by
  unfold Flc.evict
  split
  · exact h.closeSeat _
  · exact h

theorem overriding_evict {f : Flc} (h : Overriding f) : Overriding f.evict := by
  unfold Flc.evict
  split
  · exact overriding_closeSeat h _
  · exact h

theorem evict_limit (f : Flc) : f.evict.limit = f.limit := by
  unfold Flc.evict
  split <;> rfl

theorem evict_takesPart (f : Flc) (x : Seat) : f.evict.takesPart x = f.takesPart x := by
  unfold Flc.evict
  split <;> rfl

theorem evict_silent {f : Flc} {x : Seat} (silent : f.speaks x = false) : f.evict.speaks x = false := by
  unfold Flc.evict
  split
  · by_contra sp
    exact absurd (speaks_closeSeat.1 (by simpa using sp)).1 (by simp [silent])
  · exact silent

theorem evict_length {f : Flc} (h : FloorCore f) (some_ : f.speakers ≠ []) : f.evict.speakers.length < f.speakers.length := by
  obtain ⟨x, victim, sp⟩ := victim_of_speakers h some_
  obtain ⟨e, m, rfl⟩ := speaks_iff.1 sp
  rw [evict_eq victim]
  exact List.length_filter_lt_length_iff_exists.2 ⟨e, m, by simp⟩

/-- Room for one, when the list is full, by one eviction. -/
theorem evict_room {f : Flc} (core : FloorCore f) (within : WithinLimit f) (limit : 1 ≤ f.limit) (full : f.hasRoom = false) :
    f.evict.hasRoom = true := by
  have many : f.limit ≤ f.speakers.length := by simpa [Flc.hasRoom] using full
  have less := evict_length core (fun nil => by simp [nil] at many; omega)
  have := within limit
  simp only [Flc.hasRoom, evict_limit, decide_eq_true_eq]
  omega

/-- A seat opened into the room that the list has or that an eviction makes. -/
theorem openSeat_evicting {f : Flc} (core : FloorCore f) (within : WithinLimit f) (e : FloorEnv) (o : Origin) {x : Seat}
    (part : f.takesPart x = true) (silent : f.speaks x = false) :
    FloorCore ((if f.hasRoom then f else f.evict).openSeat e x o) ∧ WithinLimit ((if f.hasRoom then f else f.evict).openSeat e x o) := by
  split
  · rename_i room
    exact ⟨core.openSeat e o part silent, fun _ => by simpa [Flc.openSeat, Flc.hasRoom] using room⟩
  · rename_i full
    refine ⟨core.evict.openSeat e o (by rwa [evict_takesPart]) (evict_silent silent), fun limit => ?_⟩
    have room := evict_room core within (by simpa [Flc.openSeat, evict_limit] using limit) (by simpa using full)
    simpa [Flc.openSeat, Flc.hasRoom] using room

/-- An eviction and an opening into its place. -/
theorem floorSound_evict_openSeat {f : Flc} (h : FloorSound f) (e : FloorEnv) (o : Origin) {x : Seat} (part : f.takesPart x = true)
    (silent : f.speaks x = false) (full : f.hasRoom = false) : FloorSound (f.evict.openSeat e x o) := by
  obtain ⟨core, within, ov⟩ := (floorSound_iff f).1 h
  have opened := openSeat_evicting core within e o part silent
  rw [full] at opened
  exact (floorSound_iff _).2 ⟨opened.1, opened.2, overriding_openSeat (overriding_evict ov) e o x⟩

theorem evictDown_limit (n : Nat) (f : Flc) : (f.evictDown n).limit = f.limit := by
  induction n generalizing f with
  | zero => rfl
  | succ n ih =>
    unfold Flc.evictDown
    split
    · rw [ih, evict_limit]
    · rfl

theorem evictDown_sound {f : Flc} (n : Nat) (core : FloorCore f) (ov : Overriding f) :
    FloorCore (f.evictDown n) ∧ Overriding (f.evictDown n) ∧
      (1 ≤ f.limit → f.speakers.length ≤ f.limit + n → (f.evictDown n).speakers.length ≤ (f.evictDown n).limit) := by
  induction n generalizing f with
  | zero => exact ⟨core, ov, fun _ l => l⟩
  | succ n ih =>
    unfold Flc.evictDown
    split
    · rename_i more
      obtain ⟨core', ov', within⟩ := ih core.evict (overriding_evict ov)
      refine ⟨core', ov', fun limit l => within (by rwa [evict_limit]) ?_⟩
      have less := evict_length core (fun nil => by simp [nil] at more)
      rw [evict_limit]
      omega
    · rename_i enough
      exact ⟨core, ov, fun _ _ => Nat.le_of_not_lt enough⟩

end Sys2Proof.Machine
end

section
/-! PROOF. The floor stays sound through every event, report and command of chapter 2, and so through every step. -/

namespace Sys2Proof.Machine

open Sys2Proof

section
variable {f : Flc}

/-- A floor that differs in nothing the soundness reads. -/
theorem FloorSound.same {g : Flc} (h : FloorSound f) (speakers : g.speakers = f.speakers) (queue : g.queue = f.queue)
    (overrides : g.overrides = f.overrides) (limit : g.limit = f.limit) (seats : g.seats = f.seats) : FloorSound g :=
  floorSound_marks h speakers queue overrides limit fun x => by simp [seats, Flc.role]

theorem silent_of_not {x : Seat} (h : ¬f.speaks x = true) : f.speaks x = false := by simpa using h

theorem FloorSound.head_takesPart (h : FloorSound f) {q : QueueEntry} (m : q ∈ f.queue) : f.takesPart q.seat = true := by
  simp [Flc.takesPart, h.enabled.2 q m, h.online.2 q m]

theorem FloorSound.waiter_silent (h : FloorSound f) {q : QueueEntry} (m : q ∈ f.queue) : f.speaks q.seat = false := by
  by_contra sp
  exact absurd (waits_of_mem m) (by simp [((floorSound_iff f).1 h).1.apart q.seat (by simpa using sp)])

/-! ## Promotion and the end of a floor change (R24, R36, R37) -/

theorem floorSound_promoteHeads (e : FloorEnv) (hold : Bool) (n : Nat) (h : FloorSound f) : FloorSound (f.promoteHeads e hold n) := by
  induction n generalizing f with
  | zero => exact h
  | succ n ih =>
    unfold Flc.promoteHeads
    split
    · exact h
    · rename_i q rest hq
      have m : q ∈ f.queue := by simp [hq]
      split
      · rename_i room
        exact ih (floorSound_openSeat h e _ (h.head_takesPart m) (h.waiter_silent m) (Bool.and_eq_true_iff.1 room).1)
      · exact h

theorem floorSound_promote (e : FloorEnv) (st : Settings) (h : FloorSound f) : FloorSound (f.promote e st) := by
  unfold Flc.promote
  split
  · exact floorSound_promoteHeads _ _ _ h
  · exact h

theorem floorSound_withRings (lead : Nat) (h : FloorSound f) : FloorSound (f.withRings lead) :=
  floorSound_marks h rfl rfl rfl rfl fun x => by simp [Flc.withRings, Flc.role]

theorem floorSound_floorChange (cause : FloorCause) (s0 s1 : State) (h : FloorSound s1.flc) :
    FloorSound (State.floorChange cause s0 s1).flc := by
  rw [floorChange_eq]
  have settled : FloorSound (State.settledFlc s0 s1) := by
    refine floorSound_withRings _ ?_
    split
    · exact floorSound_promote _ _ h
    · exact h
  exact settled.same rfl rfl rfl rfl rfl

theorem floorSound_floorEdit {s : State} (cause : FloorCause) {edit : Flc → Flc} (h : FloorSound (edit s.flc)) :
    FloorSound (s.floorEdit cause edit).flc := floorSound_floorChange cause s _ h

/-! ## Keys and voice reports (R25 to R33) -/

theorem floorSound_ask (e : FloorEnv) (st : Settings) {x : Seat} (h : FloorSound f) (part : f.takesPart x = true)
    (silent : f.speaks x = false) (out : f.waits x = false) : FloorSound (f.ask e st x) := by
  have queued := floorSound_enqueueOrRefuse h e .key part silent out
  unfold Flc.ask
  dsimp only
  split
  · split
    · rename_i open_
      exact floorSound_openSeat h e _ part silent (Bool.and_eq_true_iff.1 open_).1
    · rename_i closed
      split
      · exact floorSound_refuse h x
      · exact queued
      · split
        · exact queued
        · rename_i free
          refine floorSound_evict_openSeat h e _ part silent ?_
          simpa [free] using closed
  · exact queued

theorem floorSound_toggleSelfMute (x : Seat) (h : FloorSound f) : FloorSound (f.toggleSelfMute x) := by
  unfold Flc.toggleSelfMute
  dsimp only
  split
  · exact floorSound_mark h rfl rfl rfl
  · refine floorSound_mark (floorSound_queue ?_ List.filter_sublist) rfl rfl rfl
    split
    · exact floorSound_closeSeat h x
    · exact h

theorem waits_of_find?_none {x : Seat} (h : f.queue.find? (fun q => q.seat = x) = none) : f.waits x = false := by
  simpa [Flc.waits] using h

theorem floorSound_micEvent (e : FloorEnv) (st : Settings) (x : Seat) (edge : KeyEdge) (mode : KeyMode) (h : FloorSound f)
    (part : f.takesPart x = true) : FloorSound (f.micEvent e st x edge mode) := by
  unfold Flc.micEvent
  split
  · split
    · exact floorSound_closeSeat h x
    · exact floorSound_closeSeat h x
    · exact h
  · rename_i silent
    split
    · split
      · exact floorSound_withdraw h x
      · split
        · exact floorSound_withdraw h x
        · exact h
      · exact h
    · rename_i out
      split
      · exact floorSound_ask e st h part (silent_of_not silent) (waits_of_find?_none out)
      · exact h

theorem floorSound_micEventVoice (x : Seat) (edge : KeyEdge) (mode : KeyMode) (h : FloorSound f) :
    FloorSound (f.micEventVoice x edge mode) := by
  unfold Flc.micEventVoice
  split
  · split
    · exact floorSound_closeSeat h x
    · exact floorSound_closeSeat h x
    · exact h
  · split
    · split
      · exact floorSound_withdraw h x
      · exact h
    · split
      · exact floorSound_toggleSelfMute x h
      · exact h

/-- Who overrides has priority, and speaks or is the seat `x` whose override begins (R31). -/
def OverridingBut (x : Seat) (f : Flc) : Prop := ∀ y ∈ f.overrides, hasPriority (f.role y) = true ∧ (f.speaks y = true ∨ y = x)

theorem overriding_of_but {x : Seat} (ov : OverridingBut x f) (sp : f.speaks x = true) : Overriding f := fun y m =>
  ⟨(ov y m).1, (ov y m).2.elim id fun e => e ▸ sp⟩

theorem overridingBut_evict {x : Seat} (ov : OverridingBut x f) : OverridingBut x f.evict := by
  unfold Flc.evict
  split
  · intro y m
    simp only [Flc.closeSeat, List.mem_filter, decide_eq_true_eq] at m
    exact ⟨(ov y m.1).1, (ov y m.1).2.imp_left fun sp => speaks_closeSeat.2 ⟨sp, m.2⟩⟩
  · exact ov

theorem overriding_openSeat_but {x : Seat} (e : FloorEnv) (o : Origin) (ov : OverridingBut x f) : Overriding (f.openSeat e x o) := by
  intro y m
  rw [openSeat_role, speaks_openSeat]
  exact ov y m

/-- The seat whose override begins comes to speak, after an eviction when the list is full. -/
theorem floorSound_opened {x : Seat} (e : FloorEnv) (core : FloorCore f) (within : WithinLimit f) (ov : OverridingBut x f)
    (part : f.takesPart x = true) :
    FloorSound (if f.speaks x then f else (if f.hasRoom then f else f.evict).openSeat e x .priority) := by
  split
  · exact (floorSound_iff f).2 ⟨core, within, overriding_of_but ov ‹_›⟩
  · rename_i silent
    have opened := openSeat_evicting core within e .priority part (silent_of_not silent)
    refine (floorSound_iff _).2 ⟨opened.1, opened.2, overriding_openSeat_but e .priority ?_⟩
    split
    · exact ov
    · exact overridingBut_evict ov

theorem floorSound_beginOverride (e : FloorEnv) (policy : PriorityPolicy) {x : Seat} (h : FloorSound f) (part : f.takesPart x = true)
    (priority : hasPriority (f.role x) = true) : FloorSound (f.beginOverride e policy x) := by
  obtain ⟨core, within, ov⟩ := (floorSound_iff _).1 (floorSound_withdraw h x)
  have core1 : ∀ l : List Seat, FloorCore (({ f with overrides := l } : Flc).withdraw x) := fun l =>
    core.shrink (List.Sublist.refl _) (List.Sublist.refl _) (fun _ _ t => t) fun _ _ => rfl
  have ov1 : OverridingBut x (({ f with overrides := if x ∈ f.overrides then f.overrides else f.overrides ++ [x] } : Flc).withdraw x) := by
    intro y m
    have old : y ∈ f.overrides → hasPriority (f.role y) = true ∧ (f.speaks y = true ∨ y = x) := fun m => ⟨(ov y m).1, .inl (ov y m).2⟩
    simp only [Flc.withdraw] at m
    split at m
    · exact old m
    · rcases List.mem_append.1 m with m | m
      · exact old m
      · obtain rfl := List.mem_singleton.1 m
        exact ⟨priority, .inr rfl⟩
  have opened := floorSound_opened e (core1 (if x ∈ f.overrides then f.overrides else f.overrides ++ [x])) within ov1 part
  unfold Flc.beginOverride
  dsimp only
  split
  · exact floorSound_priorityOnly opened
  · exact opened

theorem floorSound_endOverride (x : Seat) (h : FloorSound f) : FloorSound (f.endOverride x) :=
  h.shrink (List.Sublist.refl _) (List.Sublist.refl _) rfl (fun _ _ t => t) (fun _ _ => rfl) fun y m =>
    ⟨List.mem_of_mem_filter m, (h.overriding y (List.mem_of_mem_filter m)).2⟩

theorem floorSound_grantHead (e : FloorEnv) (x : Seat) (h : FloorSound f) : FloorSound (f.grantHead e x) := by
  unfold Flc.grantHead
  split
  · exact floorSound_refuse h x
  · rename_i q rest hq
    have m : q ∈ f.queue := by simp [hq]
    split
    · exact floorSound_openSeat h e _ (h.head_takesPart m) (h.waiter_silent m) ‹_›
    · exact floorSound_refuse h x

theorem floorSound_keyEdit (e : FloorEnv) (st : Settings) (x : Seat) (k : Key) (edge : KeyEdge) (mode : KeyMode) (h : FloorSound f)
    (part : f.takesPart x = true) : FloorSound (f.keyEdit e st x k edge mode) := by
  cases k with
  | mic =>
    simp only [Flc.keyEdit]
    split
    · exact floorSound_micEventVoice x edge mode h
    · exact floorSound_micEvent e st x edge mode h part
  | priority =>
    cases edge with
    | press =>
      simp only [Flc.keyEdit]
      split
      · exact floorSound_beginOverride e _ h part ‹_›
      · exact h
    | release => exact floorSound_endOverride x h
  | next =>
    simp only [Flc.keyEdit]
    split
    · exact floorSound_grantHead e x h
    · exact h
  | share => exact h

theorem floorSound_onset (e : FloorEnv) (st : Settings) {x : Seat} (h : FloorSound f) (part : f.takesPart x = true) :
    FloorSound (f.onset e st x) := by
  unfold Flc.onset
  split
  · exact h
  · rename_i outside
    simp only [Bool.or_eq_true, not_or, Bool.not_eq_true] at outside
    obtain ⟨silent, out⟩ := outside
    split
    · rename_i free
      exact floorSound_openSeat h e _ part silent (Bool.and_eq_true_iff.1 free).1
    · exact floorSound_enqueueOrRefuse h e _ part silent out

theorem floorSound_voiceEnds (x : Seat) (h : FloorSound f) : FloorSound (f.voiceEnds x) := by
  unfold Flc.voiceEnds
  split
  · exact floorSound_closeSeat h x
  · exact floorSound_queue h List.filter_sublist

/-! ## Timers (R29, R34, R35) -/

/-- Entries changed in fields other than the seat and the priority. -/
theorem floorSound_mapEntries (g : SpeakerEntry → SpeakerEntry) (same : ∀ e, (g e).seat = e.seat ∧ (g e).priority = e.priority)
    (h : FloorSound f) : FloorSound { f with speakers := f.speakers.map g } := by
  refine floorSound_entries h ?_
  simp [Flc.mixSpeakers, Function.comp_def, same]

theorem ticked_same (e : SpeakerEntry) : e.ticked.seat = e.seat ∧ e.ticked.priority = e.priority := by
  unfold SpeakerEntry.ticked
  split
  · split <;> exact ⟨rfl, rfl⟩
  · exact ⟨rfl, rfl⟩

theorem floorSound_closeDue (l : List SpeakerEntry) (h : FloorSound f) :
    FloorSound (l.foldl (fun g e => if e.due then g.closeSeat e.seat else g) f) := by
  induction l generalizing f with
  | nil => exact h
  | cons e l ih =>
    refine ih ?_
    dsimp only
    split
    · exact floorSound_closeSeat h _
    · exact h

theorem floorSound_expire (action : ExpiryAction) (h : FloorSound f) : FloorSound (f.expire action) := by
  cases action with
  | warn =>
    refine floorSound_mapEntries _ (fun e => ?_) h
    split <;> exact ⟨rfl, rfl⟩
  | close => exact floorSound_closeDue _ h

/-! ## Seats leaving, arriving and changing role (R32, R35, R40, R42) -/

theorem floorSound_leaveCollections (x : Seat) (h : FloorSound f) : FloorSound (f.leaveCollections x) :=
  floorSound_withdraw (floorSound_closeSeat h x) x

/-- A seat out of the collections takes any fields. -/
theorem leaveCollections_out (x : Seat) : ¬((f.leaveCollections x).speaks x = true ∨ (f.leaveCollections x).waits x = true) := by
  rintro (sp | w)
  · exact (speaks_closeSeat.1 sp).2 rfl
  · exact (waits_withdraw.1 w).2 rfl

theorem floorSound_put_out {x : Seat} (v : FlcSeat) (h : FloorSound f) (out : ¬(f.speaks x = true ∨ f.waits x = true)) :
    FloorSound (f.put x v) := floorSound_put h (fun p => absurd p out) fun sp => absurd (.inl sp) out

theorem floorSound_leaveFloor (x : Seat) (h : FloorSound f) : FloorSound (f.leaveFloor x) :=
  floorSound_put_out _ (floorSound_leaveCollections x h) (leaveCollections_out x)

theorem floorSound_left (x : Seat) (v : FlcSeat) (h : FloorSound f) : FloorSound ((f.leaveFloor x).put x v) :=
  floorSound_put_out v (floorSound_leaveFloor x h) (leaveCollections_out (f := f) x)

theorem floorSound_disable (x : Seat) (h : FloorSound f) : FloorSound (f.disable x) := floorSound_left x _ h

theorem floorSound_takePresence (x : Seat) (was now : Presence) (h : FloorSound f) : FloorSound (f.takePresence x was now) := by
  have lost := floorSound_left x { (f.leaveFloor x).seats.get x with online := false } h
  cases now with
  | online =>
    refine floorSound_put h (fun _ t => ⟨?_, rfl⟩) fun _ => rfl
    simp only [Flc.takesPart, Bool.and_eq_true] at t
    simp [t.1]
  | absent => exact lost
  | offline => exact lost

theorem floorSound_assignRole (limit : Nat) (x : Seat) (role : Role) (h : FloorSound f) : FloorSound (f.assignRole limit x role) := by
  unfold Flc.assignRole
  split
  · exact h
  · obtain ⟨core, within, ov⟩ := (floorSound_iff f).1 h
    have seat : ∀ e : SpeakerEntry, (if e.seat = x then e.rerolled limit role else e).seat = e.seat := fun e => by
      split <;> rfl
    have speaks : ∀ y, (f.speakers.map fun e => if e.seat = x then e.rerolled limit role else e).any (fun e => e.seat = y) = f.speaks y :=
      fun y => by simp only [List.any_map, Flc.speaks, Function.comp_def, seat]
    refine (floorSound_iff _).2 ⟨⟨?once, core.queueOnce, ?apart, core.withinPlaces, ?part, ?priority⟩, ?within, ?ov⟩
    case once => simpa [Function.comp_def, seat] using core.speakersOnce
    case apart => exact fun y sp => core.apart y ((speaks y).symm.trans sp)
    case part =>
      intro y p
      have t := core.takesPart y (p.imp_left (speaks y).symm.trans)
      simp only [Flc.takesPart, Tab.get_upd] at t ⊢
      split
      · rename_i e
        exact e ▸ t
      · exact t
    case priority =>
      intro d m
      obtain ⟨e, me, rfl⟩ := List.mem_map.1 m
      simp only [seat, Flc.role, Tab.get_upd]
      split
      · rfl
      · exact core.priority e me
    case within => simpa [WithinLimit] using within
    case ov =>
      intro y m
      have old : y ∈ f.overrides ∧ (y = x → hasPriority role = true) := by
        simp only at m
        split at m
        · exact ⟨m, fun _ => ‹_›⟩
        · simp only [List.mem_filter, decide_eq_true_eq] at m
          exact ⟨m.1, fun e => absurd e m.2⟩
      refine ⟨?_, (speaks y).trans (ov y old.1).2⟩
      simp only [Flc.role, Tab.get_upd]
      split
      · exact old.2 ‹_›
      · exact (ov y old.1).1

theorem floorSound_foldl {α : Type} {g : Flc → α → Flc} (step : ∀ (f : Flc) (a : α), FloorSound f → FloorSound (g f a)) (l : List α)
    (h : FloorSound f) : FloorSound (l.foldl g f) := by
  induction l generalizing f with
  | nil => exact h
  | cons a l ih => exact ih (step f a h)

theorem floorSound_giveRole (limit : Nat) (x : Seat) (role : Role) (h : FloorSound f) : FloorSound (f.giveRole limit x role) := by
  refine floorSound_assignRole limit x role ?_
  split
  · refine floorSound_foldl (fun g y hg => ?_) _ h
    split
    · exact floorSound_assignRole limit y _ hg
    · exact hg
  · exact h

/-! ## Meetings, the power state and the seating (R20, R41, R43, R44, R45) -/

theorem floorSound_takePower (p : Power) (h : FloorSound f) : FloorSound (f.takePower p) := by
  cases p with
  | quiet => exact floorSound_of_empty rfl rfl rfl
  | sleep => exact floorSound_of_empty rfl rfl rfl
  | full => exact h.same rfl rfl rfl rfl rfl
  | waking => exact h.same rfl rfl rfl rfl rfl

theorem floorSound_participant (x : Seat) (p : Option PIdx) (h : FloorSound f) :
    FloorSound (f.put x { f.seats.get x with participant := p }) := floorSound_mark h rfl rfl rfl

theorem floorSound_enable (x : Seat) (h : FloorSound f) : FloorSound (f.put x { f.seats.get x with enabled := true }) := by
  refine floorSound_put h (fun _ t => ⟨rfl, ?_⟩) fun _ => rfl
  simp only [Flc.takesPart, Bool.and_eq_true] at t
  exact t.2

theorem floorSound_editSeat (old new : SeatPlan) (policy : LockPolicy) (x : Seat) (h : FloorSound f) :
    FloorSound (f.editSeat old new policy x) := by
  have left := floorSound_leaveCollections x h
  have disabled := floorSound_disable x h
  unfold Flc.editSeat
  split
  · dsimp only
    have dropped : FloorSound (if old.lists x && !new.names x then f.leaveCollections x else f) := by
      split
      · exact left
      · exact h
    generalize (if old.lists x && !new.names x then f.leaveCollections x else f) = g at dropped
    split
    · exact floorSound_enable x (floorSound_participant x none dropped)
    · exact floorSound_disable x (floorSound_participant x none dropped)
  · split
    · refine floorSound_put h (fun _ t => ?_) fun _ => rfl
      simp only [Flc.takesPart, Bool.and_eq_true] at t
      simp [t.1, t.2]
    · split
      · cases policy with
        | locked => exact disabled
        | free => exact h
      · split
        · cases policy with
          | locked => exact disabled
          | free => exact floorSound_participant x none left
        · split
          · cases policy with
            | locked => exact disabled
            | free => exact h
          · exact h

theorem floorSound_editPlan (st : Settings) (new : SeatPlan) (policy : LockPolicy) (h : FloorSound f) :
    FloorSound (f.editPlan st new policy) := by
  have edited : FloorSound (allSeats.foldl (fun g x => g.editSeat f.plan new policy x) f) :=
    floorSound_foldl (fun _ x => floorSound_editSeat f.plan new policy x) allSeats h
  unfold Flc.editPlan
  generalize allSeats.foldl (fun g x => g.editSeat f.plan new policy x) f = f1 at edited
  have roled : FloorSound (allSeats.foldl (fun g x => g.assignRole st.speechLimit x (new.roleOf x)) f1) :=
    floorSound_foldl (fun _ x => floorSound_assignRole st.speechLimit x (new.roleOf x)) allSeats edited
  dsimp only
  generalize allSeats.foldl (fun g x => g.assignRole st.speechLimit x (new.roleOf x)) f1 = f2 at roled
  exact roled.same rfl rfl rfl rfl rfl

theorem floorSound_takeSeating (seating : Seating) (inMeeting : Bool) (h : FloorSound f) : FloorSound (f.takeSeating seating inMeeting) := by
  have set : FloorSound { f with seating := seating } := h.same rfl rfl rfl rfl rfl
  unfold Flc.takeSeating
  dsimp only
  split
  · exact set
  · split
    · exact floorSound_foldl (fun g x => floorSound_disable x) allSeats set
    · have disabled : ∀ x, f.speaks x = true ∨ f.waits x = true →
          ((f.seats.get x).online && !(f.seats.get x).enabled) = false := fun x p => by
        have part := ((floorSound_iff f).1 h).1.takesPart x p
        simp only [Flc.takesPart, Bool.and_eq_true] at part
        simp [part.1]
      refine h.seats rfl rfl rfl rfl (fun x p t => ?_) fun x sp => ?_
      · simp only [Flc.takesPart, Tab.get_gen, disabled x p, Bool.false_eq_true, if_false]
        exact t
      · simp only [Flc.role, Tab.get_gen, disabled x (.inl sp), Bool.false_eq_true, if_false]
    · exact set

/-! ## Mode, limit and policy (R38, R39, R51) -/

theorem floorSound_changeMode (mode : FloorMode) (h : FloorSound f) : FloorSound (f.changeMode mode) := by
  unfold Flc.changeMode
  split
  · exact h
  · split
    · exact (floorSound_queue h (List.nil_sublist _)).same rfl rfl rfl rfl rfl
    · split
      · have origins := floorSound_mapEntries (fun e => if e.origin = .voice then { e with origin := .auto } else e)
          (fun e => by split <;> exact ⟨rfl, rfl⟩) h
        refine floorSound_marks (floorSound_queue origins (List.filter_sublist (p := fun q => q.origin ≠ .voice))) rfl rfl rfl rfl fun x => ?_
        simp [Flc.role]
      · exact h.same rfl rfl rfl rfl rfl

theorem floorSound_changeLimit (limit : Nat) (h : FloorSound f) : FloorSound (f.changeLimit limit) := by
  obtain ⟨core, -, ov⟩ := (floorSound_iff f).1 h
  have core' : FloorCore { f with limit := limit } :=
    core.shrink (List.Sublist.refl _) (List.Sublist.refl _) (fun _ _ t => t) fun _ _ => rfl
  obtain ⟨down, ovDown, within⟩ := evictDown_sound f.speakers.length core' ov
  refine (floorSound_iff _).2 ⟨down, fun l => ?_, ovDown⟩
  have same : (f.changeLimit limit).limit = limit := evictDown_limit _ _
  exact within (same ▸ l) (Nat.le_add_left _ _)

theorem floorSound_takePolicy (p : PriorityPolicy) (h : FloorSound f) : FloorSound (f.takePolicy p) := by
  unfold Flc.takePolicy
  split
  · exact floorSound_priorityOnly h
  · exact h

end

/-! ## Every step -/

theorem upheld_floor : Upheld [.floor] fun s => FloorSound s.flc := by
  intro s t same h
  obtain ⟨⟨speakers, queue, overrides, limit⟩, fields⟩ := same _ (.head _)
  exact floorSound_marks h speakers queue overrides limit fields

theorem floorSound_floorSet {s : State} (r : CmdRef) (set : Settings → Settings) {edit : Flc → Flc} (result : Result) (payload : List Byte)
    (h : FloorSound (edit s.flc)) : FloorSound (s.floorSet r set edit result payload).flc :=
  floorSound_floorChange .command s { s with settings := set s.settings, flc := edit s.flc } h

theorem floorOk_flc (s : State) (r : CmdRef) (edit : Flc → Flc) (payload : Flc → List Byte) :
    (s.floorOk r edit payload).flc = (s.floorEdit .command edit).flc := by
  simp only [State.floorOk, State.reply_flc]

theorem floorSound_floorOk {s : State} (r : CmdRef) {edit : Flc → Flc} (payload : Flc → List Byte)
    (h : FloorSound (edit s.flc)) : FloorSound (s.floorOk r edit payload).flc := by
  rw [floorOk_flc]
  exact floorSound_floorEdit .command h

theorem floorSound_grantSeat {s : State} (r : CmdRef) (x : Seat) (h : FloorSound s.flc) : FloorSound (s.grantSeat r x).flc := by
  unfold State.grantSeat
  dsimp only
  split
  · exact h
  · rename_i part
    split
    · exact h
    · rename_i silent
      split
      · exact h
      · split
        · exact h
        · rename_i room
          exact floorSound_floorOk r _ (floorSound_openSeat h _ _ (by simpa using part) (silent_of_not silent) (by simpa using room))

theorem floorSound_addRequestFor {s : State} (r : CmdRef) (x : Seat) (h : FloorSound s.flc) : FloorSound (s.addRequestFor r x).flc := by
  unfold State.addRequestFor
  dsimp only
  split
  · exact h
  · rename_i part
    split
    · exact h
    · rename_i silent
      split
      · exact h
      · rename_i out
        split
        · exact h
        · rename_i room
          exact floorSound_floorOk r _ (floorSound_enqueue h _ _ (by simpa using part) (silent_of_not silent) (by simpa using out) (by omega))

theorem floorSound_setRoleOf {s : State} (r : CmdRef) (x : Seat) (role : Role) (p : Option (Option PIdx)) (h : FloorSound s.flc) :
    FloorSound (s.setRoleOf r x role p).flc := by
  have given := floorSound_giveRole s.settings.speechLimit x role h
  refine floorSound_floorOk r _ ?_
  cases p with
  | none => exact given
  | some p => exact floorSound_participant x p given

theorem floorSound_setLimit {s : State} (r : CmdRef) (scope : Scope) (n : Int) (h : FloorSound s.flc) :
    FloorSound (s.setLimit r scope n).flc := by
  have changed := floorSound_changeLimit (clampInt 1 8 n).toNat h
  unfold State.setLimit
  dsimp only
  split
  · exact floorSound_floorSet r _ _ _ changed
  · exact floorSound_floorSet r _ _ _ changed

theorem floorSound_speechSecond {s : State} (h : FloorSound s.flc) : FloorSound s.speechSecond.flc := by
  have counted := floorSound_floorEdit (s := s) .secondEvent
    (edit := fun f => { f with speakers := s.flc.speakers.map SpeakerEntry.ticked }) (floorSound_mapEntries _ ticked_same h)
  unfold State.speechSecond
  dsimp only
  split
  · rw [State.emit_flc, State.emit_flc]
    exact counted
  · exact h

/-- The commands of section 2.12. -/
def isFloorCommand : Instr → Bool
  | .grant .. | .grantNext _ | .addRequest .. | .close .. | .closeSpeakers _ | .clearQueue _ | .setFloorMode .. | .setOpenLimit ..
  | .setOverflow .. | .setPriorityPolicy .. | .setSpeechLimit .. | .enableSeat .. | .setRole .. => true
  | _ => false

theorem floorSound_empty_speakers {f : Flc} (h : FloorSound f) : FloorSound { f with speakers := [], overrides := [] } :=
  h.shrink (List.nil_sublist _) (List.Sublist.refl _) rfl (fun _ _ t => t) (fun _ _ => rfl) (by simp)

theorem floorSound_command (c : Instr) (s : State) (command : isFloorCommand c = true) (h : FloorSound s.flc) :
    FloorSound (s.after c).flc := by
  have full := fun {r : CmdRef} {effect : State → State} => upheld_floor.whenFull (s := s.taking c) (effect := effect) r h
  have done := fun {t : State} => holds_after (I := fun s => FloorSound s.flc) (c := c) (s := s) (t := t)
  cases c with
  | grant r x =>
    refine done rfl (full ?_)
    split
    · exact h
    · exact floorSound_grantSeat r _ h
  | grantNext r =>
    refine done rfl (full ?_)
    split
    · exact h
    · rename_i q rest hq
      have m : q ∈ s.flc.queue := by
        rw [State.taking_flc] at hq
        simp [hq]
      split
      · exact h
      · split
        · exact h
        · rename_i room
          exact floorSound_floorOk r _ (floorSound_openSeat h _ _ (h.head_takesPart m) (h.waiter_silent m) (by simpa using room))
  | addRequest r x =>
    refine done rfl (full ?_)
    split
    · exact h
    · exact floorSound_addRequestFor r _ h
  | close r x =>
    refine done rfl (full ?_)
    split
    · exact h
    · split
      · exact floorSound_floorOk r _ (floorSound_closeSeat h _)
      · split
        · exact floorSound_floorOk r _ (floorSound_withdraw h _)
        · exact h
  | closeSpeakers r => exact done rfl (full (floorSound_floorOk r _ (floorSound_empty_speakers h)))
  | clearQueue r => exact done rfl (full (floorSound_floorOk r _ (floorSound_queue h (List.nil_sublist _))))
  | setFloorMode r m sc =>
    refine done rfl (full ?_)
    split
    · exact floorSound_floorSet r _ _ _ (floorSound_changeMode _ h)
    · exact floorSound_floorSet r _ _ _ (floorSound_changeMode _ h)
    · exact h
  | setOpenLimit r n sc =>
    refine done rfl (full ?_)
    split
    · exact floorSound_setLimit r _ _ h
    · exact h
  | setOverflow r p =>
    refine done rfl (full ?_)
    split
    · exact floorSound_floorSet r _ _ _ h
    · exact h
  | setPriorityPolicy r p =>
    refine done rfl (full ?_)
    split
    · split
      · exact h
      · exact floorSound_floorSet r _ _ _ (floorSound_takePolicy _ h)
    · exact h
  | setSpeechLimit r n l a =>
    refine done rfl (full ?_)
    split
    · dsimp only
      split
      · exact floorSound_floorSet r _ _ _ h
      · exact floorSound_floorSet r _ _ _ h
    · exact h
  | enableSeat r x b =>
    refine done rfl (full ?_)
    split
    · split
      · exact h
      · exact floorSound_floorOk r _ (floorSound_enable _ h)
    · split
      · exact floorSound_floorOk r _ (floorSound_disable _ h)
      · exact h
    · exact h
  | setRole r x ro p =>
    refine done rfl (full ?_)
    split
    · exact floorSound_setRoleOf r _ _ _ h
    · exact floorSound_setRoleOf r _ _ _ h
    · split
      · exact floorSound_setRoleOf r _ _ _ h
      · exact h
    · exact h
  | _ => simp [isFloorCommand] at command

theorem floorSound_keyEvent {s : State} (x : Seat) (k : Key) (edge : KeyEdge) (mode : KeyMode) (h : FloorSound s.flc) :
    FloorSound (s.after (.keyEvent x k edge mode)).flc := by
  refine holds_after (I := fun s => FloorSound s.flc) rfl ?_
  split
  · rename_i heard
    rw [State.emit_flc]
    exact floorSound_floorEdit .keyEvent (floorSound_keyEdit _ _ x k edge mode h heard.2)
  · exact h

theorem floorSound_voiceOnset {s : State} (x : Seat) (h : FloorSound s.flc) : FloorSound (s.after (.voiceOnset x)).flc := by
  refine holds_after (I := fun s => FloorSound s.flc) rfl ?_
  split
  · rename_i heard
    exact floorSound_floorEdit .voiceReport (floorSound_onset _ _ h heard.2.2.1)
  · exact h

theorem floorSound_presenceReport {s : State} (x : Seat) (was now : Presence) (h : FloorSound s.flc) :
    FloorSound (s.after (.presenceReportAtFlc x was now)).flc := by
  have taken := floorSound_floorEdit (s := s.taking (.presenceReportAtFlc x was now)) .report (floorSound_takePresence x was now h)
  refine holds_after (I := fun s => FloorSound s.flc) rfl ?_
  split
  · rw [State.emit_flc]
    exact taken
  · exact taken

theorem blockTakesPower_flc (s : State) (p : Power) (phase : Option Phase) :
    s.blockTakesPower .flc p phase = s.floorEdit .report (Flc.takePower · p) := rfl

theorem floorSound_blockTakesPower {s : State} (b : BlockId) (p : Power) (phase : Option Phase) (h : FloorSound s.flc) :
    FloorSound (s.blockTakesPower b p phase).flc := by
  by_cases own : b = .flc
  · subst own
    rw [blockTakesPower_flc]
    exact floorSound_floorEdit .report (floorSound_takePower p h)
  · exact upheld_floor.of_kept (s := s) (t := s.blockTakesPower b p phase) (kept_blockTakesPower s b p phase)
      (by cases b <;> simp [powerTouches] at own ⊢) h

theorem floorSound_powerStateReport {s : State} (b : BlockId) (p : Power) (phase : Option Phase) (h : FloorSound s.flc) :
    FloorSound (s.after (.powerStateReport b p phase)).flc := by
  rw [after_powerStateReport]
  exact floorSound_blockTakesPower b p phase h

theorem floorSound_secondEvent {s : State} (h : FloorSound s.flc) : FloorSound (s.after .secondEvent).flc := by
  have ticked : FloorSound ({ s with msc := s.msc.tick } : State).speechSecond.flc := floorSound_speechSecond h
  refine holds_after (I := fun s => FloorSound s.flc) rfl ?_
  split
  · exact h
  · split
    · exact h
    · dsimp only
      split
      · exact upheld_floor.of_kept (qs := [.writes]) ((Scheduled.refl _).evaluate.kept (.head _)) (by simp) ticked
      · exact ticked

theorem floorSound_event (c : Instr) (s : State) (t : touches c = [.floor]) (event : isFloorCommand c = false) (h : FloorSound s.flc) :
    FloorSound (s.after c).flc := by
  cases c with
  | speechTimerExpiry => exact holds_after (I := fun s => FloorSound s.flc) rfl (floorSound_floorEdit .secondEvent (floorSound_expire _ h))
  | refusalFlashExpiry x =>
    exact holds_after (I := fun s => FloorSound s.flc) rfl (floorSound_floorEdit .flashExpiry (floorSound_mark h rfl rfl rfl))
  | keyEvent x k e m => exact floorSound_keyEvent x k e m h
  | voiceOnset x => exact floorSound_voiceOnset x h
  | voiceEnd x =>
    refine holds_after (I := fun s => FloorSound s.flc) rfl ?_
    split
    · exact floorSound_floorEdit .voiceReport (floorSound_voiceEnds x h)
    · exact h
  | presenceReportAtFlc x was now => exact floorSound_presenceReport x was now h
  | muteSwitchAtFlc b =>
    exact holds_after (I := fun s => FloorSound s.flc) rfl (floorSound_floorEdit .report (h.same rfl rfl rfl rfl rfl))
  | activationReport a =>
    exact holds_after (I := fun s => FloorSound s.flc) rfl (floorSound_floorEdit .report (floorSound_of_empty rfl rfl rfl))
  | endingReport p st =>
    exact holds_after (I := fun s => FloorSound s.flc) rfl (floorSound_floorEdit .report (floorSound_of_empty rfl rfl rfl))
  | attendeeEditReport p st =>
    exact holds_after (I := fun s => FloorSound s.flc) rfl (floorSound_floorEdit .report (floorSound_editPlan _ p st h))
  | seatingReport st b =>
    exact holds_after (I := fun s => FloorSound s.flc) rfl (floorSound_floorEdit .report (floorSound_takeSeating st b h))
  | participantDeletionReport p =>
    refine holds_after (I := fun s => FloorSound s.flc) rfl (floorSound_floorEdit .report ?_)
    exact floorSound_marks h rfl rfl rfl rfl fun x => by simp [Flc.role]
  | _ => simp [touches, isFloorCommand] at t event

theorem floorSound_reset (s : State) (d : ResetDetectors) (roomRuns : Bool) : FloorSound (s.after (.reset d roomRuns)).flc := by
  refine upheld_floor.of_kept (kept_afterLoading s d roomRuns) (by simp) ?_
  simp only [State.loaded]
  exact floorSound_of_empty rfl rfl rfl

theorem floorSound_after (c : Instr) (s : State) (t : .floor ∈ touches c) (h : FloorSound s.flc) : FloorSound (s.after c).flc := by
  by_cases only : touches c = [.floor]
  · cases command : isFloorCommand c with
    | true => exact floorSound_command c s command h
    | false => exact floorSound_event c s only command h
  · cases c with
    | reset d b => exact floorSound_reset s d b
    | secondEvent => exact floorSound_secondEvent h
    | powerStateReport b p phase => exact floorSound_powerStateReport b p phase h
    | _ => simp [touches] at t only

/-- Settles O59: every operation of the floor keeps its collections sound, and no other command changes them. -/
theorem stepsKeepTheFloorSound : Obligations.StepsKeepTheFloorSound := fun _ _ sound h =>
  step_keeps (I := fun s => FloorSound s.flc) upheld_floor (by simp) (fun c s m => floorSound_after c s (by simpa using m)) h sound

end Sys2Proof.Machine
end

section
/-! PROOF. The share list, the slots in force and the agenda page, kept sound by every step. The share list changes in two ways beside the
placement: it narrows, entries leaving it or letting go of their slot, or one entry joins at its tail. -/

namespace Sys2Proof.Machine

open Sys2Proof

/-! ## The two soundnesses of a share list -/

/-- Two entries of a sound list: they have different points, and do not hold the same slot. -/
def SharesApart (a b : ShareEntry) : Prop := a.point ≠ b.point ∧ ∀ k, a.state.slot = some k → ∀ j, b.state.slot = some j → k ≠ j

theorem sharesSound_iff (v : Scr) : SharesSound v ↔ v.shares.Pairwise SharesApart := by
  unfold SharesSound SharesApart List.Nodup
  rw [List.pairwise_map, List.pairwise_filterMap, List.pairwise_and_iff]

/-- Every slot held is in force under the settings (R100). -/
def HeldInForce (st : Settings) (l : List ShareEntry) : Prop :=
  ∀ e ∈ l, ∀ k, e.state.slot = some k → slotExists st k = true ∧ st.source.get k = .auto

/-- A share list with entries gone, and entries that hold the slot they held or none. -/
def Narrowed (l m : List ShareEntry) : Prop :=
  ∃ g : ShareEntry → Option ShareEntry, m = l.filterMap g ∧
    ∀ e d, g e = some d → d.point = e.point ∧ (d.state.slot = e.state.slot ∨ d.state.slot = none)

theorem narrowed_map {g : ShareEntry → ShareEntry}
    (h : ∀ e, (g e).point = e.point ∧ ((g e).state.slot = e.state.slot ∨ (g e).state.slot = none)) (l : List ShareEntry) :
    Narrowed l (l.map g) :=
  ⟨fun e => some (g e), by simp, fun e d eq => Option.some.inj eq ▸ h e⟩

theorem narrowed_filter (p : ShareEntry → Bool) (l : List ShareEntry) : Narrowed l (l.filter p) :=
  ⟨Option.guard p, by rw [List.filterMap_eq_filter], fun e d eq => by
    obtain ⟨rfl, -⟩ := Option.guard_eq_some_iff.1 eq
    exact ⟨rfl, .inl rfl⟩⟩

theorem Narrowed.refl (l : List ShareEntry) : Narrowed l l := ⟨some, by simp, fun e d eq => Option.some.inj eq ▸ ⟨rfl, .inl rfl⟩⟩

theorem narrowed_nil (l : List ShareEntry) : Narrowed l [] := ⟨fun _ => none, by simp, fun _ _ eq => by cases eq⟩

theorem Narrowed.trans {l m n : List ShareEntry} (h : Narrowed l m) (k : Narrowed m n) : Narrowed l n := by
  obtain ⟨g, rfl, hg⟩ := h
  obtain ⟨f, rfl, hf⟩ := k
  refine ⟨fun e => (g e).bind f, by rw [List.filterMap_filterMap], fun e d eq => ?_⟩
  obtain ⟨c, gc, fc⟩ := Option.bind_eq_some_iff.1 eq
  obtain ⟨point, slot⟩ := hg e c gc
  obtain ⟨point', slot'⟩ := hf c d fc
  refine ⟨point'.trans point, ?_⟩
  rcases slot' with same | gone
  · exact slot.imp same.trans same.trans
  · exact .inr gone

theorem Narrowed.apart {l m : List ShareEntry} (h : Narrowed l m) (sound : l.Pairwise SharesApart) : m.Pairwise SharesApart := by
  obtain ⟨g, rfl, hg⟩ := h
  refine List.pairwise_filterMap.2 (sound.imp fun {a b} apart c gc d gd => ?_)
  obtain ⟨pointC, slotC⟩ := hg a c gc
  obtain ⟨pointD, slotD⟩ := hg b d gd
  have held : ∀ {e f : ShareEntry} {k : SlotId}, (f.state.slot = e.state.slot ∨ f.state.slot = none) → f.state.slot = some k →
      e.state.slot = some k := fun h k => h.elim (fun e => e.symm.trans k) fun n => by rw [n] at k; cases k
  exact ⟨by rw [pointC, pointD]; exact apart.1, fun k hk j hj => apart.2 k (held slotC hk) j (held slotD hj)⟩

theorem Narrowed.inForce {st : Settings} {l m : List ShareEntry} (h : Narrowed l m) (held : HeldInForce st l) : HeldInForce st m := by
  obtain ⟨g, rfl, hg⟩ := h
  intro d md k hk
  obtain ⟨e, me, ge⟩ := List.mem_filterMap.1 md
  rcases (hg e d ge).2 with same | gone
  · exact held e me k (same.symm.trans hk)
  · rw [gone] at hk
    cases hk

/-! ## The placement pass (R100) -/

theorem placeOne_apart (st : Settings) {v : Scr} (sound : v.shares.Pairwise SharesApart) : (v.placeOne st).shares.Pairwise SharesApart := by
  unfold Scr.placeOne
  split
  · rename_i k e hk he
    have free := List.find?_some hk
    simp only [Scr.isFree, entryIn_isNone, Bool.and_eq_true, List.all_eq_true, decide_eq_true_eq] at free
    refine List.pairwise_map.2 (sound.imp_of_mem fun {a b} ma mb apart => ?_)
    refine ⟨?_, fun i hi j hj => ?_⟩
    · split <;> split <;> exact apart.1
    · split at hi <;> split at hj
      · rename_i ha hb
        exact absurd (ha.1.trans hb.1.symm) apart.1
      · obtain rfl := Option.some.inj hi
        exact fun eq => free.2 b mb (eq ▸ hj)
      · obtain rfl := Option.some.inj hj
        exact fun eq => free.2 a ma (eq ▸ hi)
      · exact apart.2 i hi j hj
  · exact sound

theorem placeOne_inForce {st : Settings} {v : Scr} (held : HeldInForce st v.shares) : HeldInForce st (v.placeOne st).shares := by
  unfold Scr.placeOne
  split
  · rename_i k e hk he
    have free := List.find?_some hk
    simp only [Scr.isFree, Bool.and_eq_true, decide_eq_true_eq] at free
    intro d md j hj
    obtain ⟨c, mc, rfl⟩ := List.mem_map.1 md
    split at hj
    · obtain rfl := Option.some.inj hj
      exact free.1
    · exact held c mc j hj
  · exact held

theorem place_apart (st : Settings) {v : Scr} (sound : v.shares.Pairwise SharesApart) : (v.place st).shares.Pairwise SharesApart :=
  placeOne_apart st (placeOne_apart st (placeOne_apart st (placeOne_apart st sound)))

theorem place_inForce {st : Settings} {v : Scr} (held : HeldInForce st v.shares) : HeldInForce st (v.place st).shares :=
  placeOne_inForce (placeOne_inForce (placeOne_inForce (placeOne_inForce held)))

/-! ## Screen changes -/

theorem screenChange_shares (cause : ShareCause) (plates : Bool) (s0 s1 : State) :
    (State.screenChange cause plates s0 s1).scr.shares = (s1.scr.place s1.settings).shares := by
  cases plates <;> rfl

/-- Both soundnesses of the share list stand. -/
def SharesStand (s t : State) : Prop := (SharesSound s.scr → SharesSound t.scr) ∧ (SlotsInForce s → SlotsInForce t)

theorem SharesStand.trans {s t u : State} (h : SharesStand s t) (k : SharesStand t u) : SharesStand s u := ⟨k.1 ∘ h.1, k.2 ∘ h.2⟩

theorem sharesStand_screenChange (cause : ShareCause) (plates : Bool) (s0 s1 : State) :
    SharesStand s1 (State.screenChange cause plates s0 s1) := by
  refine ⟨fun sound => ?_, fun held => ?_⟩
  · rw [sharesSound_iff, screenChange_shares]
    exact place_apart _ ((sharesSound_iff _).1 sound)
  · unfold SlotsInForce
    rw [screenChange_shares, screenChange_settings]
    exact place_inForce held

theorem sharesStand_narrowed {s : State} {v : Scr} (h : Narrowed s.scr.shares v.shares) : SharesStand s { s with scr := v } :=
  ⟨fun sound => (sharesSound_iff _).2 (h.apart ((sharesSound_iff _).1 sound)), fun held => h.inForce held⟩

theorem sharesStand_edit {s : State} (cause : ShareCause) (plates : Bool) {edit : Scr → Scr}
    (h : Narrowed s.scr.shares (edit s.scr).shares) : SharesStand s (s.screenEdit cause plates edit) :=
  (sharesStand_narrowed h).trans (sharesStand_screenChange cause plates s _)

/-- A request of a point without an entry joins the tail (R98). -/
theorem sharesStand_request {s : State} (p : Point) (x : Seat) (free : s.scr.hasEntry p = false) :
    SharesStand s { s with scr := s.scr.request p x } := by
  simp only [Scr.hasEntry, List.any_eq_false, decide_eq_true_eq] at free
  refine ⟨fun sound => ?_, fun held e m k hk => ?_⟩
  · rw [sharesSound_iff] at sound ⊢
    refine List.pairwise_append.2 ⟨sound, List.pairwise_singleton _ _, fun a ma b mb => ?_⟩
    obtain rfl := List.mem_singleton.1 mb
    exact ⟨free a ma, fun _ _ _ hj => by cases hj⟩
  · rcases List.mem_append.1 m with m | m
    · exact held e m k hk
    · obtain rfl := List.mem_singleton.1 m
      cases hk

theorem upheld_shares : Upheld [.shares] fun s => SharesSound s.scr := by
  intro s t same sound
  have pairs : t.scr.shares.map (fun e => (e.point, e.state.slot)) = s.scr.shares.map fun e => (e.point, e.state.slot) := same _ (.head _)
  have points := congrArg (List.map Prod.fst) pairs
  have slots := congrArg (List.filterMap Prod.snd) pairs
  simp only [List.map_map, List.filterMap_map, Function.comp_def] at points slots
  unfold SharesSound
  rw [points, slots]
  exact sound

theorem upheld_slots : Upheld [.shares, .slots] SlotsInForce := by
  intro s t same held e m k hk
  have pairs : t.scr.shares.map (fun e => (e.point, e.state.slot)) = s.scr.shares.map fun e => (e.point, e.state.slot) :=
    same .shares (by simp)
  obtain ⟨layout, source⟩ := same .slots (by simp)
  have m' : (e.point, e.state.slot) ∈ s.scr.shares.map fun e => (e.point, e.state.slot) := by
    rw [← pairs]
    exact List.mem_map.2 ⟨e, m, rfl⟩
  obtain ⟨d, md, eq⟩ := List.mem_map.1 m'
  have inForce := held d md k ((Prod.mk.inj eq).2.trans hk)
  simp only [slotExists, layout, source] at inForce ⊢
  exact inForce

theorem Kept.sharesStand {ps : List Part} {s t : State} (k : Kept ps s t) (shares : .shares ∉ ps) (slots : .slots ∉ ps) : SharesStand s t :=
  ⟨fun sound => upheld_shares.of_kept k (by simpa using shares) sound, fun held => upheld_slots.of_kept k (by simpa using ⟨shares, slots⟩) held⟩

theorem SharesStand.refl (s : State) : SharesStand s s := ⟨id, id⟩

theorem sharesStand_reply {s t : State} (h : SharesStand s t) (r : CmdRef) (res : Result) (payload : List Byte) :
    SharesStand s (t.reply r res payload) := h.trans ((kept_emit (ps := []) t _).sharesStand (by simp) (by simp))

theorem sharesStand_taking {s t : State} {c : Instr} (h : SharesStand (s.taking c) t) : SharesStand s t := h

theorem sharesStand_whenFull {s : State} (r : CmdRef) {effect : State → State} (h : SharesStand s (effect s)) :
    SharesStand s (s.whenFull r effect) := by
  unfold State.whenFull
  split
  · exact h
  · exact (kept_waitForFull (ps := []) s r).sharesStand (by simp) (by simp)

theorem sharesStand_after {c : Instr} {s t : State} (h : exec c s = .next t) (k : SharesStand s t) : SharesStand s (s.after c) :=
  after_of_exec h ▸ k

/-! ## The operations of the Screen Router -/

theorem narrowed_drop (gone : ShareEntry → Bool) (v : Scr) : Narrowed v.shares (v.drop gone).shares := narrowed_filter _ _

theorem narrowed_takePresence (st : Settings) (x : Seat) (now : Presence) (v : Scr) : Narrowed v.shares (v.takePresence st x now).shares := by
  unfold Scr.takePresence
  split
  · exact .refl _
  · split
    · exact (narrowed_filter _ _).trans (narrowed_filter _ _)
    · exact narrowed_filter _ _

theorem narrowed_takeEnabled (x : Seat) (b : Bool) (v : Scr) : Narrowed v.shares (v.takeEnabled x b).shares := by
  cases b with
  | true => exact .refl _
  | false => exact narrowed_filter _ _

theorem narrowed_takeFloor (st : Settings) (v : Scr) : Narrowed v.shares (v.takeFloor st).shares := by
  unfold Scr.takeFloor
  split
  · refine ⟨v.graced st.floorGrace, rfl, fun e d eq => ?_⟩
    unfold Scr.graced at eq
    split at eq
    · exact Option.some.inj eq ▸ ⟨rfl, .inl rfl⟩
    · rename_i k hk
      split at eq
      · exact Option.some.inj eq ▸ ⟨rfl, .inl rfl⟩
      · split at eq
        · cases eq
        · exact Option.some.inj eq ▸ ⟨rfl, .inl (by simp [hk, ShareState.slot])⟩
    · rename_i k n hk
      split at eq
      · exact Option.some.inj eq ▸ ⟨rfl, .inl (by simp [hk, ShareState.slot])⟩
      · exact Option.some.inj eq ▸ ⟨rfl, .inl rfl⟩
  · exact .refl _

theorem narrowed_takeView (st : Settings) (f : FloorView) (v : Scr) : Narrowed v.shares (v.takeView st f).shares := by
  have dropped : ∀ u : Scr, u.shares = v.shares → Narrowed v.shares ((u.takeFloor st).drop fun e => !f.enabled.get e.seat).shares :=
    fun u same => same ▸ (narrowed_takeFloor st u).trans (narrowed_drop _ _)
  exact dropped _ rfl

theorem narrowed_rejudged (p : PresenterPolicy) (v : Scr) : Narrowed v.shares (v.shares.map (v.rejudged p)) := by
  refine narrowed_map (fun e => ?_) _
  unfold Scr.rejudged
  split
  · exact ⟨rfl, .inl rfl⟩
  · split
    · exact ⟨rfl, .inl rfl⟩
    · exact ⟨rfl, .inr rfl⟩
  · rename_i k n hk
    split
    · exact ⟨rfl, .inl (by simp [hk, ShareState.slot])⟩
    · exact ⟨rfl, .inr rfl⟩

theorem narrowed_displaced (st : Settings) (v : Scr) : Narrowed v.shares (v.displaced st).shares := by
  refine narrowed_map (fun e => ?_) _
  split
  · split
    · exact ⟨rfl, .inl rfl⟩
    · exact ⟨rfl, .inr rfl⟩
  · exact ⟨rfl, .inl rfl⟩

/-- What is left in its slot after a change of the settings is in force under them (R104). -/
theorem displaced_inForce (st : Settings) (v : Scr) : HeldInForce st (v.displaced st).shares := by
  intro d md k hk
  obtain ⟨e, me, rfl⟩ := List.mem_map.1 md
  split at hk
  · rename_i j hj
    split at hk
    · rename_i ok
      obtain rfl := Option.some.inj (hj.symm.trans hk)
      exact Bool.and_eq_true_iff.1 ok |>.imp_right of_decide_eq_true
    · cases hk
  · rename_i none_
    rw [none_] at hk
    cases hk

theorem narrowed_approve (policy : PresenterPolicy) (p : Point) (yes : Bool) (v : Scr) : Narrowed v.shares (v.approve policy p yes).shares := by
  refine narrowed_map (fun e => ?_) _
  split
  · refine ⟨rfl, ?_⟩
    dsimp only
    split
    · split
      · exact .inr rfl
      · exact .inl rfl
    · exact .inl rfl
  · exact ⟨rfl, .inl rfl⟩

theorem narrowed_takePower (p : Power) (v : Scr) : Narrowed v.shares (v.takePower p).shares := by
  cases p with
  | quiet => exact narrowed_nil _
  | sleep => exact narrowed_nil _
  | full => exact .refl _
  | waking => exact .refl _

theorem sharesStand_toggleShare {s : State} (x : Seat) :
    SharesStand s (s.screenEdit .keyEvent false (Scr.toggleShare s.settings x)) := by
  refine SharesStand.trans ?_ (sharesStand_screenChange .keyEvent false s _)
  unfold Scr.toggleShare
  split
  · exact sharesStand_narrowed (.refl _)
  · split
    · exact sharesStand_narrowed (narrowed_drop _ _)
    · rename_i free
      split
      · exact sharesStand_narrowed (.refl _)
      · exact sharesStand_request _ x (by simpa using free)

theorem sharesStand_takeSignal {s : State} (x : Seat) (b : Bool) :
    SharesStand s (s.screenEdit .report false (Scr.takeSignal s.settings x b)) := by
  refine sharesStand_edit .report false ?_
  unfold Scr.takeSignal
  dsimp only
  split
  · exact .refl _
  · exact .refl _

/-- A screen command that leaves the layouts and the sources alone. -/
theorem sharesStand_screenSet {s : State} (r : CmdRef) {set : Settings → Settings} {edit : Settings → Scr → Scr}
    (slots : (set s.settings).layout = s.settings.layout ∧ (set s.settings).source = s.settings.source)
    (h : Narrowed s.scr.shares (edit (set s.settings) s.scr).shares) : SharesStand s (s.screenSet r set edit) := by
  have inForce : SharesStand s { s with settings := set s.settings } := ⟨id, fun held e m k hk => by
    obtain ⟨layout, source⟩ := slots
    simp only [slotExists, layout, source]
    exact held e m k hk⟩
  unfold State.screenSet
  split
  · exact sharesStand_reply (.refl s) r _ _
  · exact sharesStand_reply ((inForce.trans (sharesStand_narrowed h)).trans (sharesStand_screenChange .command false s _)) r _ _

/-- A new layout or source (R104, R111): what stays in its slot is in force. -/
theorem sharesStand_displacing {s : State} (r : CmdRef) (set : Settings → Settings) : SharesStand s (s.screenSet r set Scr.displaced) := by
  have displaced : SharesStand s { s with settings := set s.settings, scr := s.scr.displaced (set s.settings) } :=
    ⟨fun sound => (sharesSound_iff _).2 ((narrowed_displaced _ _).apart ((sharesSound_iff _).1 sound)),
      fun _ => displaced_inForce (set s.settings) s.scr⟩
  unfold State.screenSet
  split
  · exact sharesStand_reply (.refl s) r _ _
  · exact sharesStand_reply (displaced.trans (sharesStand_screenChange .command false s _)) r _ _

theorem sharesStand_startShare {s : State} (r : CmdRef) (p : Point) : SharesStand s (s.startShare r p) := by
  unfold State.startShare
  split
  · exact sharesStand_reply (.refl s) r _ _
  · split
    · exact sharesStand_reply (.refl s) r _ _
    · split
      · exact sharesStand_reply (.refl s) r _ _
      · rename_i x _ _ free
        exact sharesStand_reply ((sharesStand_request p x (by simpa using free)).trans (sharesStand_screenChange .command false s _)) r _ _

theorem sharesStand_bindPoint {s : State} (r : CmdRef) (p : Point) (seat : Option Seat) : SharesStand s (s.bindPoint r p seat) := by
  unfold State.bindPoint
  split
  · exact sharesStand_reply (.refl s) r _ _
  · split
    · exact sharesStand_reply (.refl s) r _ _
    · exact sharesStand_screenSet r ⟨rfl, rfl⟩ (narrowed_drop _ _)

/-- The commands of section 5.8 that change the share list. -/
def isScreenCommand : Instr → Bool
  | .setCaption .. | .setPresenterPolicy .. | .shareStart .. | .shareStop .. | .approveShare .. | .bindSharePoint .. | .setLayout ..
  | .setSlot .. => true
  | _ => false

theorem sharesStand_command (c : Instr) (s : State) (command : isScreenCommand c = true) : SharesStand s (s.after c) := by
  cases c with
  | setCaption r b =>
    refine sharesStand_after rfl (sharesStand_whenFull (s := s.taking _) r ?_)
    split
    · exact sharesStand_screenSet r ⟨rfl, rfl⟩ (.refl _)
    · exact sharesStand_reply (.refl _) r _ _
  | setPresenterPolicy r p =>
    refine sharesStand_after rfl (sharesStand_whenFull (s := s.taking _) r ?_)
    split
    · exact sharesStand_screenSet r ⟨rfl, rfl⟩ (narrowed_rejudged _ _)
    · exact sharesStand_reply (.refl _) r _ _
  | shareStart r p =>
    refine sharesStand_after rfl (sharesStand_whenFull (s := s.taking _) r ?_)
    split
    · exact sharesStand_startShare r _
    · exact sharesStand_reply (.refl _) r _ _
  | shareStop r p =>
    refine sharesStand_after rfl (sharesStand_whenFull (s := s.taking _) r ?_)
    split
    · split
      · exact sharesStand_reply (sharesStand_edit .command false (narrowed_drop _ _)) r _ _
      · exact sharesStand_reply (.refl _) r _ _
    · exact sharesStand_reply (.refl _) r _ _
  | approveShare r p b =>
    refine sharesStand_after rfl (sharesStand_whenFull (s := s.taking _) r ?_)
    split
    · split
      · exact sharesStand_reply (sharesStand_edit .command false (narrowed_approve _ _ _ _)) r _ _
      · exact sharesStand_reply (.refl _) r _ _
    · exact sharesStand_reply (.refl _) r _ _
  | bindSharePoint r p b =>
    refine sharesStand_after rfl ?_
    split
    · exact sharesStand_bindPoint (s := s.taking _) r _ _
    · exact sharesStand_bindPoint (s := s.taking _) r _ _
    · exact sharesStand_reply (.refl (s.taking _)) r _ _
  | setLayout r c l =>
    refine sharesStand_after rfl (sharesStand_whenFull (s := s.taking _) r ?_)
    split
    · exact sharesStand_displacing r _
    · exact sharesStand_reply (.refl _) r _ _
  | setSlot r k c =>
    refine sharesStand_after rfl (sharesStand_whenFull (s := s.taking _) r ?_)
    split
    · exact sharesStand_displacing r _
    · exact sharesStand_reply (.refl _) r _ _
  | _ => simp [isScreenCommand] at command

theorem sharesStand_blockTakesPower (s : State) (b : BlockId) (p : Power) (phase : Option Phase) :
    SharesStand s (s.blockTakesPower b p phase) := by
  by_cases own : b = .scr
  · subst own
    exact sharesStand_edit .report true (narrowed_takePower p s.scr)
  · exact (kept_blockTakesPower s b p phase).sharesStand (by cases b <;> simp [powerTouches] at own ⊢) (by cases b <;> simp [powerTouches])

theorem sharesStand_agendaEvent (cause : ShareCause) (plates : Bool) {s : State} (s0 : State) {v : Scr} (h : Narrowed s.scr.shares v.shares) :
    SharesStand s (State.screenChange cause plates s0 { s with scr := v }) :=
  (sharesStand_narrowed h).trans (sharesStand_screenChange cause plates s0 _)

theorem sharesStand_reset (s : State) (d : ResetDetectors) (roomRuns : Bool) : SharesStand s (s.after (.reset d roomRuns)) := by
  have kept := (kept_afterLoading s d roomRuns).sharesStand (by simp) (by simp)
  have empty : (s.loaded d roomRuns).scr.shares = [] := by simp only [State.loaded]
  refine ⟨fun _ => kept.1 ?_, fun _ => kept.2 ?_⟩
  · rw [sharesSound_iff, empty]
    exact .nil
  · intro e m
    rw [empty] at m
    cases m

theorem sharesStand_event (c : Instr) (s : State) (t : .shares ∈ touches c) (event : isScreenCommand c = false) :
    SharesStand s (s.after c) := by
  cases c with
  | reset d b => exact sharesStand_reset s d b
  | powerStateReport b p phase =>
    rw [after_powerStateReport]
    exact sharesStand_blockTakesPower (s.taking _) b p phase
  | lossTimerExpiry p =>
    refine sharesStand_after rfl ?_
    split
    · exact sharesStand_edit .lossExpiry false (narrowed_drop _ _)
    · exact .refl s
  | floorGraceExpiry p =>
    refine sharesStand_after rfl ?_
    split
    · exact sharesStand_edit .graceExpiry false (narrowed_drop _ _)
    · exact .refl s
  | presenceReportAtScr x now => exact sharesStand_after rfl (sharesStand_edit (s := s.taking _) .report false (narrowed_takePresence _ x now _))
  | floorChangeAtScr f => exact sharesStand_after rfl (sharesStand_edit (s := s.taking _) .report true (narrowed_takeView _ f _))
  | speechRemainingReport l => exact sharesStand_after rfl (sharesStand_edit (s := s.taking _) .report true (.refl _))
  | enabledReportAtScr x b => exact sharesStand_after rfl (sharesStand_edit (s := s.taking _) .report false (narrowed_takeEnabled x b _))
  | shareKeyEvent x => exact sharesStand_after rfl (sharesStand_toggleShare (s := s.taking _) x)
  | shareSignalReport x b => exact sharesStand_after rfl (sharesStand_takeSignal (s := s.taking _) x b)
  | droppedSeatsReport l => exact sharesStand_after rfl (sharesStand_edit (s := s.taking _) .report false (narrowed_drop _ _))
  | endingMarkReport b => exact sharesStand_after rfl (sharesStand_edit (s := s.taking _) .report true (.refl _))
  | activationAtScr e a => exact sharesStand_after rfl (sharesStand_agendaEvent _ _ (s := s.taking _) _ (narrowed_nil _))
  | agendaReport a => exact sharesStand_after rfl (sharesStand_agendaEvent _ _ (s := s.taking _) _ (.refl _))
  | participantEditReport p =>
    refine sharesStand_after rfl ?_
    split
    · exact sharesStand_agendaEvent _ _ (s := s.taking _) _ (.refl _)
    · exact sharesStand_screenChange _ _ _ (s.taking _)
  | _ => simp [touches, isScreenCommand] at t event

theorem sharesStand_touching (c : Instr) (s : State) (t : .shares ∈ touches c) : SharesStand s (s.after c) := by
  cases command : isScreenCommand c with
  | true => exact sharesStand_command c s command
  | false => exact sharesStand_event c s t command

/-! ## The agenda page (R106) -/

theorem upheld_page : Upheld [.page] fun s => PageSound s.scr := by
  intro s t same sound
  obtain ⟨agenda, organiser, page⟩ := same .page (.head _)
  unfold PageSound
  rw [agenda, organiser, page]
  exact sound

theorem pageSound_pageOf {v : Scr} (h : v.page = pageOf v.agenda v.organiserName) : PageSound v := by
  unfold PageSound
  rw [h]
  refine ⟨fun c current => ?_, fun n current next => ?_, fun current next => ?_⟩
  · rw [pageOf, current]
    cases v.agenda.next <;> rfl
  · rw [pageOf, current, next]
    rfl
  · rw [pageOf, current, next]

theorem pageSound_screenChange (cause : ShareCause) (plates : Bool) (s0 : State) {s1 : State} (h : PageSound s1.scr) :
    PageSound (State.screenChange cause plates s0 s1).scr :=
  upheld_page.of_kept (kept_screenChange cause plates s0 s1) (by simp) h

theorem pageSound_takeAgenda (s : State) (a : Agenda) : PageSound (s.takeAgenda a).scr := pageSound_pageOf rfl

theorem pageSound_after (c : Instr) (s : State) (t : .page ∈ touches c) (h : PageSound s.scr) : PageSound (s.after c).scr := by
  have done := fun {u : State} => holds_after (I := fun s => PageSound s.scr) (c := c) (s := s) (t := u)
  cases c with
  | reset d b =>
    refine upheld_page.of_kept (kept_afterLoading s d b) (by simp) (pageSound_pageOf ?_)
    simp only [State.loaded, pageOf]
  | activationAtScr e a => exact done rfl (pageSound_screenChange _ _ _ (pageSound_takeAgenda _ a))
  | agendaReport a => exact done rfl (pageSound_screenChange _ _ _ (pageSound_takeAgenda _ a))
  | participantEditReport p =>
    refine done rfl (pageSound_screenChange _ _ _ ?_)
    split
    · exact pageSound_takeAgenda _ _
    · exact h
  | _ => simp [touches] at t

/-- Settles O60: the share list narrows, is placed or takes a new point, the settings of the slots change only where the displaced entries
let go of theirs, and the page is only ever written from the agenda. -/
theorem stepsKeepTheSharesSound : Obligations.StepsKeepTheSharesSound := by
  intro s t h
  refine ⟨?shares, ?slots, ?page⟩
  case shares =>
    exact step_keeps (I := fun s => SharesSound s.scr) upheld_shares (by simp) (fun c s m => (sharesStand_touching c s (by simpa using m)).1) h
  case slots =>
    refine step_keeps upheld_slots (by simp) (fun c s m => (sharesStand_touching c s ?_).2) h
    obtain ⟨p, mp, mc⟩ := m
    rcases List.mem_cons.1 mp with rfl | mp
    · exact mc
    · obtain rfl := List.mem_singleton.1 mp
      cases c <;> simp [touches] at mc ⊢
  case page =>
    exact step_keeps (I := fun s => PageSound s.scr) upheld_page (by simp) (fun c s m => pageSound_after c s (by simpa using m)) h

end Sys2Proof.Machine
end

section
/-! PROOF. The table bus (chapter 1): polls, answers, keys, reports and its commands. -/

namespace Sys2Proof.Machine

open Sys2Proof

/-! ## Seats of the table bus -/

@[simp] theorem Tbc.put_get_self (t : Tbc) (x : Seat) (v : TbcSeat) : (t.put x v).seats.get x = v := by simp [Tbc.put]

theorem Tbc.put_get_ne (t : Tbc) {x y : Seat} (n : y ≠ x) (v : TbcSeat) : (t.put x v).seats.get y = t.seats.get y := by
  simp [Tbc.put, Tab.get_upd, n]

/-! ## Polls (R1, R3, R13, R171) -/

theorem advance_seats (t : Tbc) (b : Branch) : (t.advance b).seats = t.seats := by cases b <;> rfl

theorem pollOnce_get_ne {s : State} {b : Branch} {y : Seat} (n : y ≠ seatAt b (s.tbc.nextAddress b)) :
    (s.pollOnce b).tbc.seats.get y = s.tbc.seats.get y := by
  simp only [State.pollOnce, advance_seats]
  exact Tbc.put_get_ne _ n _

theorem pollOnce_get_self (s : State) (b : Branch) (x : Seat) (h : x = seatAt b (s.tbc.nextAddress b)) :
    (s.pollOnce b).tbc.seats.get x = (pollItem (s.flc.seats.get x).ring (s.scr.seats.get x).plate (s.tbc.seats.get x)).2 ∧
      (s.pollOnce b).tbc.lastPoll = some (x, (pollItem (s.flc.seats.get x).ring (s.scr.seats.get x).plate (s.tbc.seats.get x)).1) := by
  subst h
  simp only [State.pollOnce, advance_seats, Tbc.put_get_self, and_self]

theorem pollOnce_pass (s : State) (b : Branch) :
    (s.pollOnce b).tbc.passLeft = (s.tbc.passLeft || (b = .left && s.tbc.nextLeft = 31)) ∧
      (s.pollOnce b).tbc.passRight = (s.tbc.passRight || (b = .right && s.tbc.nextRight = 31)) := by
  cases b with
  | left => exact ⟨rfl, (Bool.or_false _).symm⟩
  | right => exact ⟨(Bool.or_false _).symm, rfl⟩

theorem pollOnce_address (s : State) (b : Branch) :
    (s.pollOnce b).tbc.nextAddress b = s.tbc.nextAddress b + 1 ∧
      ∀ c, c ≠ b → (s.pollOnce b).tbc.nextAddress c = s.tbc.nextAddress c := by
  refine ⟨by cases b <;> rfl, fun c n => ?_⟩
  cases b with
  | left => cases c with
    | left => exact absurd rfl n
    | right => rfl
  | right => cases c with
    | left => rfl
    | right => exact absurd rfl n

theorem pollItem_ring {ring : Ring} {plate : Plate} {t : TbcSeat} (online : t.presence = .online) (pending : t.ringMark = .pending) :
    pollItem ring plate t = (.ring ring, { t with ringMark := .sent }) := by
  simp [pollItem, online, pending]

theorem pollItem_plate {ring : Ring} {plate : Plate} {t : TbcSeat} (online : t.presence = .online) (sent : t.ringMark ≠ .pending)
    (pending : t.plateMark = .pending) : pollItem ring plate t = (.plate plate, { t with plateMark := .sent }) := by
  simp [pollItem, online, pending, sent]

theorem pollItem_nothing {ring : Ring} {plate : Plate} {t : TbcSeat}
    (h : t.presence ≠ .online ∨ (t.ringMark ≠ .pending ∧ t.plateMark ≠ .pending)) : pollItem ring plate t = (.nothing, t) := by
  rcases h with offline | ⟨ring, plate⟩
  · simp [pollItem, offline]
  · simp [pollItem, ring, plate]

theorem pollPassOver_iff (s : State) (b : Branch) : (s.pollOnce b).pollPassOver = true ↔ CompletesPass b s := by
  obtain ⟨left, right⟩ := pollOnce_pass s b
  have phase : (s.pollOnce b).tbc.phase = s.tbc.phase := by cases b <;> rfl
  simp only [State.pollPassOver, CompletesPass, Bool.and_eq_true, decide_eq_true_eq, left, right, phase, Bool.or_eq_true, and_assoc]
  rfl

theorem exec_poll (b : Branch) (s : State) : exec (.poll b) s =
    .next (if s.polls then (if (s.pollOnce b).pollPassOver then (s.pollOnce b).enterFull else s.pollOnce b) else s) := rfl

/-- What a poll on a polled bus makes of the state: the table bus of one poll, and beside it the entry to FULL where POLL-PASS ends. -/
theorem exec_poll_polled {b : Branch} {s : State} (polls : s.polls = true) : ∃ t, exec (.poll b) s = .next t ∧
    t.tbc = (s.pollOnce b).tbc ∧ t = { s with tbc := t.tbc, pcu := t.pcu, cph := t.cph, flight := t.flight } ∧
    (¬ CompletesPass b s → t = { s with tbc := t.tbc }) := by
  rw [exec_poll, if_pos polls]
  by_cases over_ : (s.pollOnce b).pollPassOver = true
  · rw [if_pos over_]
    exact ⟨_, rfl, rfl, rfl, fun n => absurd ((pollPassOver_iff s b).1 over_) n⟩
  · rw [if_neg over_]
    exact ⟨_, rfl, rfl, rfl, fun _ => rfl⟩

/-- Settles O3, through what one poll does to the table bus. -/
theorem pollCarriesTheItem : Obligations.PollCarriesTheItem := by
  intro b s x hx
  refine ⟨fun still => by rw [exec_poll, still]; rfl, fun polls => ?_⟩
  obtain ⟨t, run, bus, frame, alone⟩ := exec_poll_polled (b := b) polls
  obtain ⟨self, last⟩ := pollOnce_get_self s b x hx
  obtain ⟨passLeft, passRight⟩ := pollOnce_pass s b
  obtain ⟨next, others⟩ := pollOnce_address s b
  refine ⟨t, run, frame, alone, ?_⟩
  rw [bus]
  refine ⟨by cases b <;> rfl, by cases b <;> rfl, passLeft, passRight, fun y n => pollOnce_get_ne (hx ▸ n), next, others, ?ring, ?plate, ?nothing⟩
  case ring =>
    intro online pending
    rw [last, self, pollItem_ring online pending]
    exact ⟨rfl, rfl⟩
  case plate =>
    intro online sent pending
    rw [last, self, pollItem_plate online sent pending]
    exact ⟨rfl, rfl⟩
  case nothing =>
    intro h
    rw [last, self, pollItem_nothing h]
    exact ⟨rfl, rfl⟩

/-! ## First answers (R5, R7, R13) -/

theorem exec_acceptedAnswer (x : Seat) (a : Answer) (s : State) : exec (.acceptedAnswer x a) s =
    .next (if s.polls then (if wrongKind (s.tbc.seats.get x) a then s.missed x else s.accepted x a) else s) := rfl

theorem exec_missedAnswer (x : Seat) (s : State) : exec (.missedAnswer x) s = .next (if s.polls then s.missed x else s) := rfl

theorem takenLevels_carried {k : UnitKind} {key : Key} (h : carries k key = true) (old raw : PerKey KeyLevel) :
    (takenLevels k old raw).get key = raw.get key := by
  cases k with
  | noUnit => nomatch h
  | delegate => cases key with
    | mic => rfl
    | priority | next | share => nomatch h
  | delegateShare => cases key with
    | mic | share => rfl
    | priority | next => nomatch h
  | chair => cases key with
    | mic | priority | next => rfl
    | share => nomatch h

/-- The share signal at the end of an accepted answer: held, and reported for a DELEGATE-SHARE seat (R2). -/
theorem takeShareSignal_eq (s : State) (x : Seat) (present : Bool) (online : (s.tbc.seats.get x).presence = .online) :
    s.takeShareSignal x present =
      (s.putTbcSeat x { s.tbc.seats.get x with shareSignal := (s.tbc.seats.get x).kind = .delegateShare && present }).emit
        (if (s.tbc.seats.get x).kind = .delegateShare then [.shareSignalReport x present] else []) := by
  unfold State.takeShareSignal
  by_cases kind : (s.tbc.seats.get x).kind = .delegateShare
  · simp [kind, online]
  · simp [kind]

theorem accepted_first {s : State} {x : Seat} {a : Answer} (offline : (s.tbc.seats.get x).presence ≠ .online) :
    s.accepted x a = (((s.putTbcSeat x { s.tbc.seats.get x with missed := 0 }).seatOnline x a).takeShareSignal x a.shareSignal).takeAck x a.ack := by
  unfold State.accepted
  simp [offline]

theorem markUnacked_pending : markUnacked .pending = .pending := rfl

theorem markAcked_pending : markAcked .pending = .pending := rfl

/-- Settles O4: the seat comes ONLINE, and the share signal and the acknowledgement of the same answer follow. -/
theorem firstAnswerBringsTheSeatOnline : Obligations.FirstAnswerBringsTheSeatOnline := by
  intro x a s polls offline kind
  have right : wrongKind (s.tbc.seats.get x) a = false := by simp [wrongKind, offline, kind]
  have run : exec (.acceptedAnswer x a) s = .next (s.accepted x a) := by
    rw [exec_acceptedAnswer, if_pos polls, right]
    rfl
  refine ⟨_, run, ?_⟩
  rw [accepted_first offline]
  have online : ((((s.putTbcSeat x { s.tbc.seats.get x with missed := 0 }).seatOnline x a).tbc.seats.get x)).presence = .online := by
    simp [State.seatOnline, State.tellPresence]
  rw [takeShareSignal_eq _ x _ online]
  refine ⟨rfl, fun y n => ?others, fun k carried => ?levels, fun k => ⟨?candidate, ?flag⟩, ?_⟩
  case others => simp [State.seatOnline, State.tellPresence, State.takeAck, Tbc.put_get_ne _ n]
  case levels => simp [State.seatOnline, State.tellPresence, State.takeAck, takenLevels_carried carried]
  case candidate => cases k <;> simp [State.seatOnline, State.tellPresence, State.takeAck, PerKey.all, PerKey.get]
  case flag => simp [State.seatOnline, State.tellPresence, State.takeAck]
  simp [State.seatOnline, State.tellPresence, State.takeAck, markUnacked_pending, markAcked_pending, Raised]

/-! ## Keys (R9 to R12) -/

/-- A test that gives the level already accepted. -/
theorem keyTest_same (d : Nat) (level : KeyLevel) (candidate : Option (KeyLevel × Nat)) :
    keyTest d level candidate level = (level, none, none) := by simp [keyTest]

/-- The first test of another level. -/
theorem keyTest_first {old raw : KeyLevel} (other : raw ≠ old) (d : Nat) : keyTest d old none raw =
    if d ≤ 1 then (raw, none, some (if raw = .down then .press else .release)) else (old, some (raw, 1), none) := by
  simp [keyTest, other]

/-- A further test of the same other level. -/
theorem keyTest_again {old raw : KeyLevel} (other : raw ≠ old) (d n : Nat) : keyTest d old (some (raw, n)) raw =
    if d ≤ n + 1 then (raw, none, some (if raw = .down then .press else .release)) else (old, some (raw, n + 1), none) := by
  simp [keyTest, other]

/-- The tests in a row of another level, before the debounce count is reached. -/
theorem keyRun_counting {d : Nat} {old raw : KeyLevel} (other : raw ≠ old) {n : Nat} (less : n < d) :
    keyRun d old raw n = (old, if n = 0 then none else some (raw, n), none) := by
  induction n with
  | zero => rfl
  | succ n ih =>
    rw [keyRun, ih (by omega)]
    by_cases first : n = 0
    · subst first
      exact (keyTest_first other d).trans (if_neg (by omega))
    · simp only [if_neg first]
      exact (keyTest_again other d n).trans (if_neg (by omega))

theorem keyRun_edge {d : Nat} {old raw : KeyLevel} (other : raw ≠ old) (some_ : 1 ≤ d) :
    keyRun d old raw d = (raw, none, some (if raw = .down then .press else .release)) := by
  obtain ⟨n, rfl⟩ : ∃ n, d = n + 1 := ⟨d - 1, by omega⟩
  rw [keyRun, keyRun_counting other (by omega)]
  by_cases first : n = 0
  · subst first
    exact (keyTest_first other 1).trans (if_pos (by omega))
  · simp only [if_neg first]
    exact (keyTest_again other (n + 1) n).trans (if_pos (by omega))

theorem keyRun_after {d : Nat} {old raw : KeyLevel} (other : raw ≠ old) (some_ : 1 ≤ d) (n : Nat) :
    keyRun d old raw (d + n + 1) = (raw, none, none) := by
  induction n with
  | zero => rw [Nat.add_zero, keyRun, keyRun_edge other some_, keyTest_same]
  | succ n ih => rw [← Nat.add_assoc, keyRun, ih, keyTest_same]

/-- Settles O6, by counting the tests up to the debounce count. -/
theorem keyEdgeTakesTheDebounceCount : Obligations.KeyEdgeTakesTheDebounceCount := by
  intro d n old raw other some_
  refine ⟨fun less => ?_, keyRun_edge other some_, ?_⟩
  · rw [keyRun_counting other less]
    exact ⟨rfl, rfl⟩
  · rw [keyRun_after other some_]
    exact ⟨rfl, rfl⟩

/-! ## The keys of one answer (R9 to R12) -/

theorem keyEventRow_eq (x : Seat) (k : Key) (e : KeyEdge) (mode : KeyMode) :
    keyEventRow x k e mode = if k = .share then .shareKeyEvent x else .keyEvent x k e mode := by cases k <;> rfl

/-- What an accepted edge makes of a state: the flag of its key, the idle timer, and the reports it sends. -/
structure EdgeTaken (u : State) (x : Seat) (k : Key) (e : KeyEdge) (w : State) : Prop where
  frame : w = { u with tbc := w.tbc, pcu := { u.pcu with idle := w.pcu.idle }, flight := w.flight }
  bus : w.tbc = { u.tbc with seats := w.tbc.seats }
  others : ∀ y, y ≠ x → w.tbc.seats.get y = u.tbc.seats.get y
  seat : w.tbc.seats.get x = { u.tbc.seats.get x with
    flag := if qualifying k (u.settings.keyMode.get x) e then (u.tbc.seats.get x).flag.upd k true else (u.tbc.seats.get x).flag }
  flight : w.flight = u.flight ++
    ((if qualifying k (u.settings.keyMode.get x) e = true ∧ k = .mic ∧ (u.tbc.seats.get x).flag.mic = false then [.micFlagReport x] else [])
      ++ (if qualifying k (u.settings.keyMode.get x) e = true ∧ u.tbc.power = some .full ∧ (u.tbc.seats.get x).heldEnabled = true then
          [if k = .share then .shareKeyEvent x else .keyEvent x k e (u.settings.keyMode.get x)] else [])
      ++ (if e = .press ∧ u.tbc.power = some .quiet then [.wakeRequest .key] else []))

/-- The flag of a key set, with the report of a MIC flag set from clear (R11). -/
theorem setKeyFlag_eq (u : State) (x : Seat) (k : Key) : u.setKeyFlag x k =
    (u.putTbcSeat x { u.tbc.seats.get x with flag := (u.tbc.seats.get x).flag.upd k true }).emit
      (if k = .mic ∧ (u.tbc.seats.get x).flag.mic = false then [.micFlagReport x] else []) := by
  unfold State.setKeyFlag
  dsimp only
  split <;> simp

theorem ite_emit (c : Prop) [Decidable c] (u : State) (l : List Instr) : (if c then u.emit l else u) = u.emit (if c then l else []) := by
  split <;> simp

/-- A key event sent, which restarts the idle timer (R167), or not. -/
theorem ite_emit_restartIdle (c : Prop) [Decidable c] (u : State) (i : Instr) : (if c then (u.emit [i]).restartIdle else u) =
    { u with
      pcu := { u.pcu with idle := if c then idleStarted u.settings.idleTime u.pcu else u.pcu.idle }
      flight := u.flight ++ if c then [i] else [] } := by
  by_cases h : c
  · simp only [if_pos h]
    rfl
  · simp only [if_neg h, List.append_nil]

theorem acceptEdge_taken (u : State) (x : Seat) (k : Key) (e : KeyEdge) : EdgeTaken u x k e (u.acceptEdge x k e) := by
  unfold State.acceptEdge
  dsimp only
  rw [ite_emit, ite_emit_restartIdle, setKeyFlag_eq, keyEventRow_eq]
  by_cases q : qualifying k (u.settings.keyMode.get x) e = true
  · simp only [if_pos q]
    refine ⟨rfl, rfl, fun y n => Tbc.put_get_ne _ n _, ?_, ?_⟩
    · simp [q]
    · simp only [q, true_and, State.emit_flight, State.putTbcSeat_flight, List.append_assoc]
  · simp only [if_neg q]
    refine ⟨rfl, rfl, fun _ _ => rfl, ?_, ?_⟩
    · simp [q]
    · simp only [q, false_and, if_false, State.emit_flight, List.append_assoc, List.nil_append, Bool.false_eq_true]

/-- An answer of the seat's own kind with the keys `done` tested, of the keys of R2. -/
structure KeysTested (s : State) (x : Seat) (a : Answer) (done : List Key) (u : State) : Prop where
  frame : u = { s with tbc := u.tbc, pcu := { s.pcu with idle := u.pcu.idle }, flight := u.flight }
  bus : u.tbc = { s.tbc with seats := u.tbc.seats }
  others : ∀ y, y ≠ x → u.tbc.seats.get y = s.tbc.seats.get y
  seat : u.tbc.seats.get x = { s.tbc.seats.get x with
    missed := 0, accepted := (u.tbc.seats.get x).accepted, candidate := (u.tbc.seats.get x).candidate, flag := (u.tbc.seats.get x).flag }
  keys : ∀ k, (u.tbc.seats.get x).accepted.get k = (if k ∈ done then (tested s x a k).1 else (s.tbc.seats.get x).accepted.get k) ∧
    (u.tbc.seats.get x).candidate.get k = (if k ∈ done then (tested s x a k).2.1 else (s.tbc.seats.get x).candidate.get k) ∧
    (u.tbc.seats.get x).flag.get k = ((s.tbc.seats.get x).flag.get k || (done.contains k && tellsFlag s x a k))
  flight : u.flight = s.flight ++ done.flatMap (edgeReports s x a)

theorem keysTested_none (s : State) (x : Seat) (a : Answer) :
    KeysTested s x a [] (s.putTbcSeat x { s.tbc.seats.get x with missed := 0 }) :=
  ⟨rfl, rfl, fun _ n => Tbc.put_get_ne _ n _, by simp, by simp, by simp⟩

/-- A key of the list that the kind does not carry. -/
theorem KeysTested.uncarried {s : State} {x : Seat} {a : Answer} {done : List Key} {u : State} (h : KeysTested s x a done u) {k : Key}
    (uncarried : carries a.kind k = false) : KeysTested s x a (done ++ [k]) u := by
  have same : tested s x a k = ((s.tbc.seats.get x).accepted.get k, (s.tbc.seats.get x).candidate.get k, none) := by
    simp [tested, uncarried]
  refine ⟨h.frame, h.bus, h.others, h.seat, fun j => ?_, ?_⟩
  · obtain ⟨accepted, candidate, flag⟩ := h.keys j
    rw [accepted, candidate, flag]
    by_cases own : j = k
    · subst own
      simp [same, tellsFlag]
    · simp [own]
  · rw [h.flight]
    simp [edgeReports, same]

/-- The table bus seat after the test of a key, before its edge is taken. -/
theorem KeysTested.levels {s : State} {x : Seat} {a : Answer} {done : List Key} {u : State} (h : KeysTested s x a done u) (k j : Key) :
    ((u.tbc.seats.get x).accepted.upd k (tested s x a k).1).get j =
        (if j ∈ done ++ [k] then (tested s x a j).1 else (s.tbc.seats.get x).accepted.get j) ∧
      ((u.tbc.seats.get x).candidate.upd k (tested s x a k).2.1).get j =
        (if j ∈ done ++ [k] then (tested s x a j).2.1 else (s.tbc.seats.get x).candidate.get j) := by
  obtain ⟨accepted, candidate, -⟩ := h.keys j
  rw [PerKey.get_upd, PerKey.get_upd, accepted, candidate]
  by_cases own : j = k
  · subst own
    simp
  · simp [own]

theorem KeysTested.tested_eq {s : State} {x : Seat} {a : Answer} {done : List Key} {u : State} (h : KeysTested s x a done u) {k : Key}
    (fresh : k ∉ done) (carried : carries a.kind k = true) :
    keyTest u.settings.debounce ((u.tbc.seats.get x).accepted.get k) ((u.tbc.seats.get x).candidate.get k) (a.levels.get k) =
      tested s x a k := by
  obtain ⟨accepted, candidate, -⟩ := h.keys k
  have settings : u.settings = s.settings := by rw [h.frame]
  rw [accepted, candidate, settings]
  simp [fresh, tested, carried]

theorem KeysTested.next {s : State} {x : Seat} {a : Answer} {done : List Key} {u : State} (h : KeysTested s x a done u) {k : Key}
    (fresh : k ∉ done) (kind : a.kind = (s.tbc.seats.get x).kind) :
    KeysTested s x a (done ++ [k]) (u.conditionKey x a.levels k) := by
  have kind' : (u.tbc.seats.get x).kind = a.kind := by rw [h.seat, kind]
  by_cases carried : carries a.kind k = true
  case neg =>
    have same : u.conditionKey x a.levels k = u := by simp [State.conditionKey, kind', carried]
    rw [same]
    exact h.uncarried (by simpa using carried)
  case pos =>
    have settings : u.settings = s.settings := by rw [h.frame]
    have power : u.tbc.power = s.tbc.power := by rw [h.bus]
    have enabled : (u.tbc.seats.get x).heldEnabled = (s.tbc.seats.get x).heldEnabled := by rw [h.seat]
    have flagged := fun j => (h.keys j).2.2
    unfold State.conditionKey
    rw [if_pos (by rw [kind']; exact carried), h.tested_eq fresh carried]
    dsimp only
    split
    · rename_i e edge
      have tells : tellsFlag s x a k = qualifying k (s.settings.keyMode.get x) e := by simp [tellsFlag, edge]
      have taken := acceptEdge_taken (u.putTbcSeat x { u.tbc.seats.get x with
        accepted := (u.tbc.seats.get x).accepted.upd k (tested s x a k).1
        candidate := (u.tbc.seats.get x).candidate.upd k (tested s x a k).2.1 }) x k e
      generalize State.acceptEdge _ x k e = w at taken ⊢
      obtain ⟨frame, bus, others, seat, flight⟩ := taken
      simp only [State.putTbcSeat_tbc, Tbc.put_get_self, State.putTbcSeat_settings, settings, ← tells] at seat flight
      refine ⟨?frame, ?bus, fun y n => ?others, ?seat, fun j => ?keys, ?flight⟩
      case frame => rw [frame, h.frame]; rfl
      case bus => rw [bus, State.putTbcSeat_tbc, Tbc.put, h.bus]
      case others => rw [others y n, State.putTbcSeat_tbc, Tbc.put_get_ne _ n, h.others y n]
      case seat => rw [seat, h.seat]
      case keys =>
        obtain ⟨accepted, candidate⟩ := h.levels k j
        rw [seat]
        refine ⟨accepted, candidate, ?_⟩
        by_cases q : tellsFlag s x a k = true
        · by_cases own : j = k
          · subst own
            simp [q]
          · simp [q, own, flagged]
        · by_cases own : j = k
          · subst own
            simp [q, flagged, fresh]
          · simp [q, own, flagged]
      case flight =>
        have mic : k = .mic → (u.tbc.seats.get x).flag.mic = (s.tbc.seats.get x).flag.mic := by
          rintro rfl
          have := flagged .mic
          simpa [fresh, PerKey.get] using this
        have reports : edgeReports s x a k =
            (if tellsFlag s x a k = true ∧ k = .mic ∧ (s.tbc.seats.get x).flag.mic = false then [.micFlagReport x] else [])
              ++ (if tellsFlag s x a k = true ∧ s.tbc.power = some .full ∧ (s.tbc.seats.get x).heldEnabled = true then
                  [if k = .share then .shareKeyEvent x else .keyEvent x k e (s.settings.keyMode.get x)] else [])
              ++ (if e = .press ∧ s.tbc.power = some .quiet then [.wakeRequest .key] else []) := by
          simp only [edgeReports, edge]
        rw [flight, State.putTbcSeat_flight, h.flight, List.flatMap_append, List.flatMap_singleton, reports, List.append_assoc]
        have flags : (k = .mic ∧ (u.tbc.seats.get x).flag.mic = false) ↔ (k = .mic ∧ (s.tbc.seats.get x).flag.mic = false) :=
          and_congr_right fun m => by rw [mic m]
        simp only [flags, enabled, Tbc.put, power]
    · rename_i edge
      have quiet : tellsFlag s x a k = false := by simp [tellsFlag, edge]
      refine ⟨?frame', ?bus', fun y n => ?others', ?seat', fun j => ?keys', ?flight'⟩
      case frame' => rw [h.frame]; rfl
      case bus' => rw [State.putTbcSeat_tbc, Tbc.put, h.bus]
      case others' => rw [State.putTbcSeat_tbc, Tbc.put_get_ne _ n, h.others y n]
      case seat' => rw [State.putTbcSeat_tbc, Tbc.put_get_self, h.seat]
      case keys' =>
        obtain ⟨accepted, candidate⟩ := h.levels k j
        rw [State.putTbcSeat_tbc, Tbc.put_get_self]
        refine ⟨accepted, candidate, ?_⟩
        by_cases own : j = k
        · subst own
          simp [quiet, flagged, fresh]
        · simp [own, flagged]
      case flight' =>
        rw [State.putTbcSeat_flight, h.flight]
        simp [edgeReports, edge]

/-- All four keys tested, in the order of log 52. -/
theorem keysTested_all {s : State} {x : Seat} {a : Answer} (kind : a.kind = (s.tbc.seats.get x).kind) :
    KeysTested s x a [.mic, .priority, .next, .share]
      (allKeys.foldl (fun u k => u.conditionKey x a.levels k) (s.putTbcSeat x { s.tbc.seats.get x with missed := 0 })) :=
  ((((keysTested_none s x a).next (by simp) kind).next (by simp) kind).next (by simp) kind).next (by simp) kind

theorem markAcked_eq (m : Mark) (acked : Prop) [Decidable acked] :
    (if acked then markAcked m else markUnacked m) = if m = .sent then (if acked then .clear else .pending) else m := by
  cases m <;> by_cases h : acked <;> simp [markAcked, markUnacked, h]

/-- Settles O5: the keys are tested one after another, and then the share signal and the acknowledgement are taken. -/
theorem answerTestsEveryKey : Obligations.AnswerTestsEveryKey := by
  intro x a s polls
  refine ⟨fun wrong => ?_, fun online kind unit => ?_⟩
  · have wrong : wrongKind (s.tbc.seats.get x) a = true := by simpa [wrongKind] using wrong
    rw [exec_acceptedAnswer, exec_missedAnswer, if_pos polls, if_pos polls, if_pos wrong]
  · have right : wrongKind (s.tbc.seats.get x) a = false := by simp [wrongKind, kind, kind ▸ unit]
    have run : exec (.acceptedAnswer x a) s = .next (s.accepted x a) := by
      rw [exec_acceptedAnswer, if_pos polls, right]
      rfl
    have keys := keysTested_all (s := s) (x := x) kind
    refine ⟨_, run, ?_⟩
    unfold State.accepted
    dsimp only
    rw [if_pos online]
    generalize allKeys.foldl (fun u k => u.conditionKey x a.levels k) (s.putTbcSeat x { s.tbc.seats.get x with missed := 0 }) = u at keys
    obtain ⟨frame, bus, others, seat, levels, flight⟩ := keys
    have online' : (u.tbc.seats.get x).presence = .online := by rw [seat, online]
    have kind' : (u.tbc.seats.get x).kind = a.kind := by rw [seat, kind]
    rw [takeShareSignal_eq u x _ online', kind']
    refine ⟨?frame, fun y n => ?others, ?presence, ?kind, ?missed, fun k => ?levels, ?share, ?ring, ?plate, ?flight⟩
    case frame => rw [frame]; rfl
    case others => simp [State.takeAck, Tbc.put_get_ne _ n, others y n]
    case presence => simp [State.takeAck, online']
    case kind => simp [State.takeAck, kind']
    case missed =>
      simp only [State.takeAck, State.putTbcSeat_tbc, State.emit_tbc, Tbc.put_get_self]
      rw [seat]
    case levels =>
      obtain ⟨accepted, candidate, flag⟩ := levels k
      simp only [State.takeAck, State.putTbcSeat_tbc, State.emit_tbc, Tbc.put_get_self, accepted, candidate, flag]
      cases k <;> simp
    case share => simp [State.takeAck]
    case ring =>
      simp only [State.takeAck, State.putTbcSeat_tbc, State.emit_tbc, Tbc.put_get_self]
      rw [seat, markAcked_eq]
    case plate =>
      simp only [State.takeAck, State.putTbcSeat_tbc, State.emit_tbc, Tbc.put_get_self]
      rw [seat, markAcked_eq]
    case flight =>
      simp only [Raised, State.takeAck, State.putTbcSeat_flight, State.emit_flight, flight, List.append_assoc]

/-! ## Missed answers (R4, R6, R13) -/

/-- Settles O7. -/
theorem threeMissedAnswersTakeTheSeatOffline : Obligations.ThreeMissedAnswersTakeTheSeatOffline := by
  intro x s polls
  have run : exec (.missedAnswer x) s = .next (s.missed x) := by rw [exec_missedAnswer, if_pos polls]
  refine ⟨fun offline => ?_, fun online => ⟨_, run, ?_⟩⟩
  · rw [run, State.missed, if_neg offline]
  · by_cases third : 3 ≤ (s.tbc.seats.get x).missed + 1
    · rw [State.missed, if_pos online, if_pos third]
      refine ⟨rfl, fun y n => Tbc.put_get_ne _ n _, ?_, ?_, fun less => by omega, fun _ => ?_⟩
      · simp [State.tellPresence]
      · simp [State.tellPresence]
      · simp [State.tellPresence, Raised]
    · rw [State.missed, if_pos online, if_neg third]
      refine ⟨rfl, fun y n => Tbc.put_get_ne _ n _, by simp, by simp, fun _ => ?_, fun more => by omega⟩
      simp only [State.putTbcSeat_tbc, Tbc.put_get_self, State.putTbcSeat_flight]
      exact ⟨online, trivial, trivial, fun sent => by rw [sent]; rfl, fun sent => by rw [sent]; rfl⟩

/-! ## Reports to the table bus (R10, R13) -/

/-- Settles O8. -/
theorem contentReportsMarkTheSeat : Obligations.ContentReportsMarkTheSeat := by
  intro x b s
  refine ⟨⟨_, rfl, rfl, fun y => ?ring⟩, ⟨_, rfl, rfl, fun y => ?plate⟩, ⟨_, rfl, rfl, fun y => ?enabled⟩⟩
  case ring =>
    by_cases own : y = x
    · subst own
      by_cases online : (s.tbc.seats.get y).presence = .online
      · simp [markChanged, online]
      · simp [markChanged, online]
    · simp [own, Tbc.put_get_ne _ own]
  case plate =>
    by_cases own : y = x
    · subst own
      by_cases online : (s.tbc.seats.get y).presence = .online
      · simp [markChanged, online]
      · simp [markChanged, online]
    · simp [own, Tbc.put_get_ne _ own]
  case enabled =>
    by_cases own : y = x
    · subst own
      simp
    · simp [own, Tbc.put_get_ne _ own]

/-! ## Key modes and flags (R15, R18) -/

theorem clearedFlag_get (keys : List Key) (f : PerKey Bool) (k : Key) :
    (keys.foldl (fun f k => f.upd k false) f).get k = (f.get k && !keys.contains k) := by
  induction keys generalizing f with
  | nil => simp
  | cons j keys ih =>
    rw [List.foldl_cons, ih, PerKey.get_upd]
    by_cases same : k = j
    · simp [same]
    · simp [same]

theorem clearFlags_get (t : Tbc) (p : Seat → Bool) (keys : List Key) (y : Seat) :
    (t.clearFlags p keys).seats.get y = { t.seats.get y with flag := ((t.clearFlags p keys).seats.get y).flag } ∧
      ∀ k, ((t.clearFlags p keys).seats.get y).flag.get k = ((t.seats.get y).flag.get k && !(p y && keys.contains k)) := by
  simp only [Tbc.clearFlags, Tab.get_gen]
  by_cases named : p y = true
  · simp only [named, if_true, Bool.true_and]
    exact ⟨trivial, clearedFlag_get keys _⟩
  · simp [named]

theorem namedKeys_contains (keys : List Key) (k : Key) : (namedKeys keys).contains k = (keys = [] || keys.contains k) := by
  unfold namedKeys
  by_cases all : keys = []
  · cases k <;> simp [all, allKeys]
  · simp [all]

/-- Settles O9. -/
theorem keyModesAndFlags : Obligations.KeyModesAndFlags := by
  intro r sel m ks micOnly s
  refine ⟨fun named => ?mode, fun named => ?flags, ?clearing⟩
  case mode =>
    cases sel with
    | all => exact ⟨_, rfl, rfl, fun y => by simp⟩
    | one x =>
      cases x with
      | none => exact absurd rfl named
      | some x =>
        refine ⟨_, rfl, rfl, fun y => ?_⟩
        simp [Tab.get_upd, eq_comm]
  case flags =>
    have cleared := fun p y => clearFlags_get s.tbc p (namedKeys ks) y
    cases sel with
    | all =>
      refine ⟨_, rfl, rfl, fun y => ⟨(cleared (fun _ => true) y).1, fun k => ((cleared (fun _ => true) y).2 k).trans ?_⟩⟩
      rw [namedKeys_contains]
      simp
    | one x =>
      cases x with
      | none => exact absurd rfl named
      | some x =>
        refine ⟨_, rfl, rfl, fun y => ⟨(cleared (fun y => y = x) y).1, fun k => ((cleared (fun y => y = x) y).2 k).trans ?_⟩⟩
        rw [namedKeys_contains]
        simp [eq_comm]
  case clearing =>
    refine ⟨_, rfl, rfl, fun y => ?_⟩
    have cleared := clearFlags_get s.tbc (fun _ => true) (if micOnly then [.mic] else allKeys) y
    refine ⟨cleared.1, fun k => (cleared.2 k).trans ?_⟩
    cases micOnly <;> cases k <;> simp [allKeys]

end Sys2Proof.Machine
end

section
/-! PROOF. Numbers: the nearest integers of R65 and R84, the length of a ramp, the blocks a detector counts, and the numeric settings. -/

namespace Sys2Proof.Machine

open Sys2Proof

/-! ## Multipliers and threshold values (R65, R84) -/

/-- The bit-by-bit search keeps the answer between a number that is not above and one that is. -/
theorem searchDown_brackets (scale : Nat) (a : Int) (bits acc : Nat) (below : notAbove scale a acc = true)
    (above : notAbove scale a (acc + 2 ^ bits) = false) :
    notAbove scale a (searchDown scale a bits acc) = true ∧ notAbove scale a (searchDown scale a bits acc + 1) = false := by
  induction bits generalizing acc with
  | zero => exact ⟨below, above⟩
  | succ bits ih =>
    rw [searchDown]
    by_cases half : notAbove scale a (acc + 2 ^ bits) = true
    · rw [if_pos half]
      exact ih _ half (by rwa [add_assoc, ← two_mul, ← pow_succ'])
    · rw [if_neg half]
      exact ih _ below (by simpa using half)

theorem notAbove_zero (scale : Nat) (a : Int) : notAbove scale a 0 = true := by simp [notAbove]

/-- A level whose double lies above the scaled power is none the search gives. -/
theorem nearestLevel_brackets {scale : Nat} {a : Int} (fits : (2 * scale) ^ 40 * 10 ^ a.toNat < (2 * 2 ^ 24 - 1) ^ 40) :
    (2 * nearestLevel scale a - 1) ^ 40 * 10 ^ (-a).toNat ≤ (2 * scale) ^ 40 * 10 ^ a.toNat ∧
      (2 * scale) ^ 40 * 10 ^ a.toNat < (2 * nearestLevel scale a + 1) ^ 40 * 10 ^ (-a).toNat := by
  have top : notAbove scale a (0 + 2 ^ 24) = false := by
    have grows : (2 * (0 + 2 ^ 24) - 1) ^ 40 ≤ (2 * (0 + 2 ^ 24) - 1) ^ 40 * 10 ^ (-a).toNat := Nat.le_mul_of_pos_right _ (by positivity)
    rw [zero_add] at grows ⊢
    rw [notAbove, decide_eq_false_iff_not, not_le]
    exact fits.trans_le grows
  obtain ⟨below, above⟩ := searchDown_brackets scale a 24 0 (notAbove_zero scale a) top
  rw [nearestLevel]
  generalize searchDown scale a 24 0 = m at below above
  simp only [notAbove, decide_eq_true_eq, decide_eq_false_iff_not, not_le, show 2 * (m + 1) - 1 = 2 * m + 1 by omega] at below above
  exact ⟨below, above⟩

/-- Settles O27: the search ends at the one number that is not above while the next one is. -/
theorem levelsAreTheNearestIntegers : Obligations.LevelsAreTheNearestIntegers := by
  refine ⟨fun a _ high => ?_, fun a _ high => ?_⟩
  · refine nearestLevel_brackets (scale := 16384) ?_
    have power : (10 : Nat) ^ a.toNat ≤ 10 ^ 24 := Nat.pow_le_pow_right (by decide) (by omega)
    calc (2 * 16384) ^ 40 * 10 ^ a.toNat ≤ (2 * 16384) ^ 40 * 10 ^ 24 := Nat.mul_le_mul_left _ power
      _ < (2 * 2 ^ 24 - 1) ^ 40 := by norm_num
  · have zero : a.toNat = 0 := by omega
    have brackets := nearestLevel_brackets (scale := 8388608) (a := a) (by rw [zero]; norm_num)
    rw [zero, pow_zero, mul_one] at brackets
    exact brackets

/-! ## Ramps (R63) -/

/-- How many ticks a ramp takes from one gain to another: rises by 2, falls by 8, a start from MUTE 20 below the target and no lower than
−160, and a last tick from a code to MUTE. -/
def rampTicks : Gain → Gain → Nat
  | .mute, .mute => 0
  | .mute, .code n => 1 + (n - max (-160) (n - 20) + 1).toNat / 2
  | .code a, .mute => 1 + (a + 160).toNat / 8
  | .code a, .code n => (n - a + 1).toNat / 2 + (a - n + 7).toNat / 8

theorem rampTicks_zero {applied target : Gain} (done : rampTicks applied target = 0) : applied = target := by
  match applied, target, done with
  | .mute, .mute, _ => rfl
  | .mute, .code _, done | .code _, .mute, done => simp [rampTicks] at done
  | .code a, .code n, done =>
    simp only [rampTicks] at done
    congr
    omega

theorem rampTicks_self (g : Gain) : rampTicks g g = 0 := by
  cases g <;> simp [rampTicks]

/-- Every tick of a ramp that is not done takes one off. -/
theorem rampTicks_rampStep {applied target : Gain} (range : gainInRange target) {n : Nat} (left : rampTicks applied target ≤ n + 1) :
    rampTicks (rampStep applied target) target ≤ n := by
  match applied, target with
  | .mute, .mute => simp [rampTicks, rampStep]
  | .mute, .code t =>
    simp only [gainInRange] at range
    simp only [rampStep_mute_code, rampTicks] at left ⊢
    omega
  | .code a, .mute =>
    rw [rampStep_code_mute]
    simp only [rampTicks] at left
    split
    · simp only [rampTicks]; omega
    · simp [rampTicks]
  | .code a, .code t =>
    simp only [rampTicks] at left
    obtain below | rfl | above := lt_trichotomy a t
    · simp only [rampStep_rise below, rampTicks]; omega
    · simp [rampStep_self, rampTicks_self]
    · simp only [rampStep_fall above, rampTicks]; omega

theorem rampRun_reaches {target applied : Gain} (range : gainInRange target) {n : Nat} (enough : rampTicks applied target ≤ n) :
    rampRun target n applied = target := by
  induction n generalizing applied with
  | zero => exact rampTicks_zero (Nat.le_zero.mp enough)
  | succ n ih => exact ih (rampTicks_rampStep range enough)

/-- Settles O26: the longest ramp, from −160 to 24, counts 92 ticks. -/
theorem rampReachesItsTarget : Obligations.RampReachesItsTarget := by
  intro target applied n targetRange appliedRange enough
  refine rampRun_reaches targetRange (le_trans ?_ enough)
  match applied, target with
  | .mute, .mute => simp [rampTicks]
  | .mute, .code t | .code a, .mute | .code a, .code t =>
    simp only [gainInRange] at targetRange appliedRange
    simp only [rampTicks]
    omega

/-! ## The detector over a run of blocks (R85, R86) -/

/-- The blocks an onset still takes at or above the threshold: one more after each that was counted. -/
theorem detectorRun_onset {onset hold n : Nat} {v : VdtSeat} {counted : Nat}
    (counting : (v.state = .quiet ∧ counted = 0) ∨ (v.state = .onset ∧ v.count = counted)) (more : counted + n < onset) :
    (detectorRun onset hold true n v).2 = [] := by
  induction n generalizing v counted with
  | zero => rfl
  | succ n ih =>
    obtain ⟨state, rfl⟩ | ⟨state, count⟩ := counting
    · simp only [detectorRun, detectorStep, state, if_true, if_neg (show ¬ onset ≤ 1 by omega)]
      simpa using ih (v := { v with state := .onset, count := 1 }) (counted := 1) (.inr ⟨rfl, rfl⟩) (by omega)
    · simp only [detectorRun, detectorStep, state, if_true, if_neg (show ¬ onset ≤ v.count + 1 by omega)]
      simpa using ih (v := { v with state := .onset, count := v.count + 1 }) (counted := v.count + 1) (.inr ⟨rfl, rfl⟩) (by omega)

theorem detectorRun_voice {onset hold : Nat} (n : Nat) {v : VdtSeat} (speaks : v.state = .voice) :
    detectorRun onset hold true n v = (v, []) := by
  induction n with
  | zero => rfl
  | succ n ih => simp [detectorRun, detectorStep, speaks, ih]

theorem detectorRun_onset_done {onset hold n : Nat} {v : VdtSeat} {counted : Nat}
    (counting : (v.state = .quiet ∧ counted = 0) ∨ (v.state = .onset ∧ v.count = counted)) (room : counted < onset)
    (enough : onset ≤ counted + n) :
    (detectorRun onset hold true n v).2 = [true] ∧ (detectorRun onset hold true n v).1.state = .voice := by
  induction n generalizing v counted with
  | zero => omega
  | succ n ih =>
    obtain ⟨state, rfl⟩ | ⟨state, rfl⟩ := counting
    · by_cases last : onset ≤ 1
      · simp [detectorRun, detectorStep, state, last, detectorRun_voice]
      · simp only [detectorRun, detectorStep, state, if_true, if_neg last]
        simpa using ih (v := { v with state := .onset, count := 1 }) (counted := 1) (.inr ⟨rfl, rfl⟩) (by omega) (by omega)
    · by_cases last : onset ≤ v.count + 1
      · simp [detectorRun, detectorStep, state, last, detectorRun_voice]
      · simp only [detectorRun, detectorStep, state, if_true, if_neg last]
        simpa using ih (v := { v with state := .onset, count := v.count + 1 }) (counted := v.count + 1) (.inr ⟨rfl, rfl⟩) (by omega) (by omega)

theorem detectorRun_quiet {onset hold : Nat} (n : Nat) {v : VdtSeat} (quiet : v.state = .quiet) :
    detectorRun onset hold false n v = (v, []) := by
  induction n with
  | zero => rfl
  | succ n ih => simp [detectorRun, detectorStep, quiet, ih]

/-- A hold counts its blocks down below the threshold and reports nothing before the last. -/
theorem detectorRun_hold {onset hold n : Nat} {v : VdtSeat} (state : v.state = .hold) (more : n < v.hold) :
    (detectorRun onset hold false n v).2 = [] := by
  induction n generalizing v with
  | zero => rfl
  | succ n ih =>
    simp only [detectorRun, detectorStep, state, Bool.false_eq_true, if_false, if_neg (show ¬ v.hold ≤ 1 by omega)]
    simpa using ih (v := { v with state := .hold, hold := v.hold - 1 }) rfl (by dsimp only; omega)

theorem detectorRun_hold_done {onset hold n : Nat} {v : VdtSeat} (state : v.state = .hold) (runs : 1 ≤ v.hold) (enough : v.hold ≤ n) :
    (detectorRun onset hold false n v).2 = [false] ∧ (detectorRun onset hold false n v).1.state = .quiet := by
  induction n generalizing v with
  | zero => omega
  | succ n ih =>
    by_cases last : v.hold ≤ 1
    · simp [detectorRun, detectorStep, state, last, detectorRun_quiet]
    · simp only [detectorRun, detectorStep, state, Bool.false_eq_true, if_false, if_neg last]
      simpa using ih (v := { v with state := .hold, hold := v.hold - 1 }) rfl (by dsimp only; omega) (by dsimp only; omega)

/-- The first block below the threshold loads the hold and reports nothing (R86). -/
theorem detectorRun_loads {onset hold : Nat} (n : Nat) {v : VdtSeat} (speaks : v.state = .voice) :
    detectorRun onset hold false (n + 1) v = detectorRun onset hold false n { v with state := .hold, hold := hold } := by
  simp [detectorRun, detectorStep, speaks]

/-- Settles O31, by induction on the blocks. -/
theorem onsetAndHoldCountTheirBlocks : Obligations.OnsetAndHoldCountTheirBlocks := by
  intro onset hold n v onsetCounts holdCounts
  refine ⟨fun quiet few => ?_, fun quiet enough => ?_, fun speaks few => ?_, fun speaks enough => ?_⟩
  · exact detectorRun_onset (.inl ⟨quiet, rfl⟩) (by omega)
  · exact detectorRun_onset_done (.inl ⟨quiet, rfl⟩) (by omega) (by omega)
  · cases n with
    | zero => rfl
    | succ n =>
      rw [detectorRun_loads n speaks]
      exact detectorRun_hold rfl few
  · cases n with
    | zero => omega
    | succ n =>
      rw [detectorRun_loads n speaks]
      exact detectorRun_hold_done rfl holdCounts (by dsimp only; omega)

/-! ## Numeric settings -/

/-- A numeric setting command sets the clamped number, and its result says whether that was the number given. -/
theorem setNumber_clamped (s : State) (r : CmdRef) {lo hi : Int} (n : Int) (shown : Int → List Byte) (set : Int → State → State) :
    s.setNumber r lo hi (some n) shown set = (set (clampInt lo hi n) s).reply r (if lo ≤ n ∧ n ≤ hi then .ok else .clamped)
      (if lo ≤ n ∧ n ≤ hi then [] else shown (clampInt lo hi n)) := by
  rw [setNumber_some]
  by_cases range : lo ≤ n ∧ n ≤ hi
  · rw [if_pos range, if_pos range, if_pos range, clampInt_of_mem range.1 range.2]
  · rw [if_neg range, if_neg range, if_neg range]

/-- The same where the command changes nothing but its settings. -/
theorem setNumber_numberSet (s : State) (c : Instr) (r : CmdRef) {lo hi : Int} (n : Int) {set : Int → State → State} (st : Settings)
    (sets : set (clampInt lo hi n) (s.taking c) = { s.taking c with settings := st }) :
    (s.taking c).setNumber r lo hi (some n) i16 set = NumberSet c r lo hi n st s := by
  rw [setNumber_clamped, sets]
  rfl

theorem clampInt_eq_max_min {lo hi : Int} (n : Int) (_ : lo ≤ hi) : clampInt lo hi n = max lo (min hi n) := by
  unfold clampInt
  omega

theorem clampInt_eq_self_iff {lo hi n : Int} (_ : lo ≤ hi) : clampInt lo hi n = n ↔ lo ≤ n ∧ n ≤ hi := by
  unfold clampInt
  omega

/-- A voice setting always answers the value in force (R90). -/
theorem setVoice_some (s : State) (c : Instr) (r : CmdRef) (n : Int) (bring : Int → Int) (set : Int → Settings → Settings) :
    (s.taking c).setVoice r (some n) bring set =
      { Answered c r (if bring n = n then .ok else .clamped) (i16 (bring n)) s with settings := set (bring n) s.settings } := rfl

theorem next_congr {s t : State} (h : s = t) : (.next s : Out) = .next t := congrArg _ h

theorem holdOf_spec (n : Int) : 100 ≤ holdOf n ∧ holdOf n ≤ 2000 ∧ holdOf n % 50 = 0 ∧
    (100 ≤ n → n ≤ 2000 → n - 25 < holdOf n ∧ holdOf n ≤ n + 25) ∧ (n < 100 → holdOf n = 100) ∧ (2000 < n → holdOf n = 2000) := by
  unfold holdOf clampInt
  omega

/-- A sleep delay set in QUIET starts the sleep timer afresh (R176). -/
theorem withSleepDelay_eq (s : State) (minutes : Nat) : s.withSleepDelay minutes = { s with
    settings := { s.settings with sleepDelay := minutes }
    pcu := { s.pcu with sleep := if s.pcu.power = some .quiet then sleepStarted minutes else s.pcu.sleep } } := by
  unfold State.withSleepDelay
  dsimp only
  split
  · rfl
  · rfl

/-- Settles O29: each command is one use of the rule for numeric settings. -/
theorem numericSettings : Obligations.NumericSettings := by
  intro r n s
  refine ⟨?debounce, rfl, ?grace, ?sleep, fun full => ?_⟩
  case debounce => exact next_congr (setNumber_numberSet s _ r n _ rfl)
  case grace => exact next_congr (setNumber_numberSet s _ r n _ rfl)
  case sleep =>
    have delay : sleepStarted (clampInt 0 240 n).toNat = if n ≤ 0 then none else some ((clampInt 0 240 n).toNat * 60 * 1024) := by
      have zero : (clampInt 0 240 n).toNat = 0 ↔ n ≤ 0 := by unfold clampInt; omega
      simp only [sleepStarted, zero, unitsPerSecond]
    refine next_congr ?_
    rw [setNumber_clamped, withSleepDelay_eq, delay]
    rfl
  have run (c : Instr) (effect : State → State) : (s.taking c).whenFull r effect = effect (s.taking c) := whenFull_full r effect full
  refine ⟨?level, ?duck, ?exclusion, ?remote, ?muted, ?floorGrace, ?threshold, ?onset, ?hold⟩
  case level => exact next_congr ((run _ _).trans (setNumber_numberSet s _ r n _ rfl))
  case duck => exact next_congr ((run _ _).trans (setNumber_numberSet s _ r n _ rfl))
  case exclusion => exact next_congr ((run _ _).trans (setNumber_numberSet s _ r n _ rfl))
  case remote => exact next_congr ((run _ _).trans (setNumber_numberSet s _ r n _ rfl))
  case muted => exact next_congr (run _ _)
  case floorGrace => exact next_congr ((run _ _).trans (setNumber_numberSet s _ r n _ rfl))
  case threshold =>
    refine ⟨_, next_congr ((run _ _).trans (setVoice_some s _ r n _ _)), ?_, clampInt_eq_max_min n (by decide)⟩
    simp only [clampInt_eq_self_iff (show (-120 : Int) ≤ -12 by decide)]
  case onset =>
    have value : ((clampInt 1 15 n).toNat : Int) = clampInt 1 15 n := by unfold clampInt; omega
    refine ⟨_, next_congr ((run _ _).trans (setVoice_some s _ r n _ _)), ?_, value.trans (clampInt_eq_max_min n (by decide))⟩
    simp only [clampInt_eq_self_iff (show (1 : Int) ≤ 15 by decide), value]
  case hold =>
    obtain ⟨low, high, rounded, near, least, most⟩ := holdOf_spec n
    have value : ((holdOf n).toNat : Int) = holdOf n := Int.toNat_of_nonneg (by omega)
    refine ⟨_, next_congr ((run _ _).trans (setVoice_some s _ r n _ _)), ?_, ?_⟩
    · simp only [value]
    · dsimp only
      omega

end Sys2Proof.Machine
end

section
/-! PROOF. The reading commands, and the state right after reset. -/

namespace Sys2Proof.Machine

open Sys2Proof

/-! ## Reading commands -/

theorem runIsBad_iff (first count lo size : Nat) :
    runIsBad first count lo size = true ↔ count < lo ∨ 16 < count ∨ size < first + count ∨ size ≤ first := by
  simp only [runIsBad, Bool.or_eq_true, decide_eq_true_eq, or_assoc]

/-- A run of at least one index is refused when it is empty, too long or leaves its table. -/
theorem runIsBad_of_bad {first count size : Nat} (h : count = 0 ∨ 16 < count ∨ size < first + count) : runIsBad first count 1 size = true := by
  rw [runIsBad_iff]
  omega

theorem runIsBad_of_good {first count size : Nat} (some_ : 1 ≤ count) (few : count ≤ 16) (within : first + count ≤ size) :
    ¬ runIsBad first count 1 size = true := by
  rw [runIsBad_iff]
  omega

theorem exec_readSeat (r : CmdRef) (first count : Nat) (s : State) :
    exec (.readSeat r first count) s = .next (if runIsBad first count 1 64 then Answered (.readSeat r first count) r .badArgument [] s
      else Answered (.readSeat r first count) r .ok
        ((runOf 64 first count).flatMap fun x => seatEntry (s.settings.keyMode.get x) x (s.tbc.seats.get x)) s) := rfl

theorem exec_readMeters (r : CmdRef) (first count : Nat) (s : State) :
    exec (.readMeters r first count) s = .next (if runIsBad first count 1 64 then Answered (.readMeters r first count) r .badArgument [] s
      else { Answered (.readMeters r first count) r .ok (s.meters first count) s with mix := s.mix.metersCleared }) := rfl

theorem exec_readScreens (r : CmdRef) (first count : Nat) (s : State) :
    exec (.readScreens r first count) s = .next (if runIsBad first count 0 64 then Answered (.readScreens r first count) r .badArgument [] s
      else Answered (.readScreens r first count) r .ok (s.screensReport first count) s) := rfl

theorem exec_readParticipant (r : CmdRef) (first count : Nat) (s : State) :
    exec (.readParticipant r first count) s = .next (if runIsBad first count 1 96 then
        Answered (.readParticipant r first count) r .badArgument [] s
      else Answered (.readParticipant r first count) r .ok ((runOf 96 first count).flatMap s.bks.participantEntry) s) := rfl

theorem exec_readBooking (r : CmdRef) (i : BSlot) (s : State) :
    exec (.readBooking r (some i)) s = .next (Answered (.readBooking r (some i)) r .ok ((match s.bks.bookings.get i with
      | none => flagByte true
      | some k => flagByte false ++ bookingField k) ++ u8 (s.bks.persist (.booking i)).code) s) := rfl

theorem exec_listBookings (r : CmdRef) (states : List (Option BState)) (first : Nat) (s : State) :
    exec (.listBookings r states first) s = .next (if 32 ≤ first then Answered (.listBookings r states first) r .badArgument [] s
      else Answered (.listBookings r states first) r .ok
        (listField s.bks.listEntry (((List.finRange 32).filter fun i => first ≤ i.val && s.bks.matchesSet states i).take 16) ++
          optU8 ((((List.finRange 32).filter fun i => first ≤ i.val && s.bks.matchesSet states i).drop 16).head?.map (·.val))) s) := rfl

theorem exec_readClock (r : CmdRef) (s : State) :
    exec (.readClock r) s = .next (Answered (.readClock r) r .ok (clockPayload s.msc ++ match s.nextDueMinute with
      | some t => u16 (t / 86400) ++ u32 (t % 86400)
      | none => absent 6) s) := rfl

/-- Settles O10: each command answers one branch of its own equation. -/
theorem readingCommands : Obligations.ReadingCommands := by
  intro r first count slot states s
  refine ⟨?seat, ?seatBad, rfl, ?meters, ?metersBad, ?screensBad, ?screens, ?free, ?booked, rfl, ?list, ?listBad, ?participant,
    ?participantBad, ?due, ?notDue, rfl, rfl, rfl⟩
  case seat => intro some_ few within; rw [exec_readSeat, if_neg (runIsBad_of_good some_ few within)]
  case seatBad => intro bad; rw [exec_readSeat, if_pos (runIsBad_of_bad bad)]
  case meters =>
    intro some_ few within
    rw [exec_readMeters, if_neg (runIsBad_of_good some_ few within)]
    exact ⟨_, rfl, rfl, rfl, fun x => Tab.get_gen _ x⟩
  case metersBad => intro bad; rw [exec_readMeters, if_pos (runIsBad_of_bad bad)]
  case screensBad => intro bad; rw [exec_readScreens, if_pos ((runIsBad_iff ..).mpr (.inr bad))]
  case screens =>
    intro few within inside
    rw [exec_readScreens, if_neg (by rw [runIsBad_iff]; omega)]
  case free => intro free; rw [exec_readBooking, free]
  case booked => intro k booked; rw [exec_readBooking, booked]
  case list => intro within; rw [exec_listBookings, if_neg (by omega)]
  case listBad => intro bad; rw [exec_listBookings, if_pos bad]
  case participant => intro some_ few within; rw [exec_readParticipant, if_neg (runIsBad_of_good some_ few within)]
  case participantBad => intro bad; rw [exec_readParticipant, if_pos (runIsBad_of_bad bad)]
  case due => intro due d; rw [exec_readClock, d, List.append_assoc]
  case notDue => intro none_; rw [exec_readClock, none_]; rfl

/-! ## The state right after reset -/

theorem gainsInRange_reset : GainsInRange State.reset := by
  intro x
  simp [State.reset, gainInRange]

theorem clockInRange_reset : ClockInRange State.reset := by simp [ClockInRange, State.reset]

theorem marksClear_reset : MarksClearUnlessOnline State.reset := by
  intro x _
  simp [State.reset]

theorem portsInBounds_reset : PortsInBounds State.reset := by
  intro p
  simp [State.reset, State.port, PortState.places]

theorem queueSound_atReset : StoreQueueSound State.reset := by simp [StoreQueueSound, State.reset]

theorem floorSound_atReset : FloorSound State.reset.flc := floorSound_of_empty rfl rfl rfl

theorem sharesSound_reset : SharesSound State.reset.scr := by simp [SharesSound, State.reset]

theorem slotsInForce_reset : SlotsInForce State.reset := by simp [SlotsInForce, State.reset]

theorem pageSound_reset : PageSound State.reset.scr := by simp [PageSound, State.reset]

/-- A reset from there is a step, and every step keeps the invariants. -/
theorem sound_after_reset {d : ResetDetectors} {roomRuns : Bool} {t : State} (run : exec (.reset d roomRuns) State.reset = .next t) :
    FloorSound t.flc ∧ SharesSound t.scr ∧ SlotsInForce t ∧ PageSound t.scr ∧ PortsInBounds t := by
  have step_ := (stepRunsTheFrontCommand (.reset d roomRuns) State.reset).trans run
  generalize start : ({ State.reset with pending := .reset d roomRuns :: State.reset.pending } : State) = s at step_
  have floor : FloorSound s.flc := by rw [← start]; exact floorSound_atReset
  have shares : SharesSound s.scr := by rw [← start]; exact sharesSound_reset
  have slots : SlotsInForce s := by rw [← start]; exact slotsInForce_reset
  have page : PageSound s.scr := by rw [← start]; exact pageSound_reset
  have ports : PortsInBounds s := by rw [← start]; exact portsInBounds_reset
  obtain ⟨keepsShares, keepsSlots, keepsPage⟩ := stepsKeepTheSharesSound s t step_
  obtain ⟨keepsPorts, _⟩ := stepsKeepTheQueues s t step_
  exact ⟨stepsKeepTheFloorSound s t floor step_, keepsShares shares, keepsSlots slots, keepsPage page, keepsPorts ports⟩

/-- Settles O56: the reset state holds nothing, and the RESET is a step from it. -/
theorem resetMeetsTheInvariants : Obligations.ResetMeetsTheInvariants :=
  ⟨gainsInRange_reset, clockInRange_reset, marksClear_reset, portsInBounds_reset, queueSound_atReset, floorSound_atReset,
    sharesSound_reset, slotsInForce_reset, pageSound_reset, fun _ _ _ => sound_after_reset⟩

end Sys2Proof.Machine
end

section
/-! PROOF. The mix engine and the voice detector (chapters 3 and 4): sample periods, blocks, the gain plan and the detector's reports. -/

namespace Sys2Proof.Machine

open Sys2Proof

/-! ## Microphones and sums (R14, R66, R70) -/

/-- A sample counts only from a seat ONLINE at the table bus while audio is carried (log 35). -/
def State.carries (s : State) (x : Seat) : Bool := s.carriesAudio && (s.tbc.seats.get x).presence = .online

theorem micOf_carriedMics (s : State) (mics : List (Seat × Sample)) (x : Seat) :
    micOf (s.carriedMics mics) x = if s.carries x then micOf mics x else 0 := by
  unfold State.carriedMics State.carries micOf
  by_cases audio : s.carriesAudio = true
  · by_cases online : (s.tbc.seats.get x).presence = .online
    · simp only [audio, online, if_true, List.find?_filter, decide_true, Bool.and_self]
      congr 3
      funext p
      by_cases same : p.1 = x
      · simp [same, online]
      · simp [same]
    · have silent : (mics.filter fun p => (s.tbc.seats.get p.1).presence = .online).find? (fun p => p.1 = x) = none := by
        simp only [List.find?_eq_none, List.mem_filter, decide_eq_true_eq]
        rintro p ⟨_, there⟩ rfl
        exact online there
      simp [audio, online, silent]
  · simp [audio]

/-- What a seat gives the sums of a sample period. -/
def State.heard (s : State) (mics : List (Seat × Sample)) (x : Seat) : Int :=
  (if (s.mix.seats.get x).online && s.carries x then micOf mics x else 0) * ((s.mix.seats.get x).mult : Int)

theorem product_carriedMics (s : State) (mics : List (Seat × Sample)) : s.mix.product (s.carriedMics mics) = s.heard mics := by
  funext x
  simp only [Mix.product, Mix.input, State.heard, micOf_carriedMics]
  cases (s.mix.seats.get x).online <;> simp

/-- The sum without the exclusion set is the sum over the other seats (R70, R72). -/
theorem total_sub_excludedSum (m : Mix) (mics : List (Seat × Sample)) (x : Seat) :
    m.total mics - m.excludedSum mics x = ((allSeats.filter fun j => !excluded m.radius x j).map (m.product mics)).sum := by
  have split_ := List.sum_map_filter_add_sum_map_filter_not (fun j => excluded m.radius x j = true) (m.product mics) allSeats
  simp only [Bool.decide_eq_true] at split_
  unfold Mix.total Mix.excludedSum
  have fold : (allSeats.filter fun j => decide ¬excluded m.radius x j = true) = allSeats.filter fun j => !excluded m.radius x j := by
    congr 1
    funext j
    simp
  rw [← split_]
  simp

/-- The feed of a seat before saturation, over the seats outside its exclusion set (R72). -/
def State.feedOf (s : State) (mics : List (Seat × Sample)) (remote : Option Sample) (x : Seat) : Int :=
  rnd14 (rnd14 (((allSeats.filter fun j => !excluded s.mix.radius x j).map (s.heard mics)).sum
    + (remote.map BitVec.toInt).getD 0 * (s.mix.remoteMult : Int)) * ((s.mix.seats.get x).level : Int))

theorem feedRaw_carriedMics (s : State) (mics : List (Seat × Sample)) (remote : Option Sample) (x : Seat) :
    s.mix.feedRaw (s.carriedMics mics) ((remote.map BitVec.toInt).getD 0) x = s.feedOf mics remote x := by
  rw [Mix.feedRaw, total_sub_excludedSum, product_carriedMics]
  rfl

theorem mixPeriod_running {s : State} (runs : s.engineRuns = true) (mics : List (Seat × Sample)) (remote : Option Sample) :
    s.mixPeriod mics remote = s.mix.sampled (s.carriedMics mics) ((remote.map BitVec.toInt).getD 0) := by
  rw [State.mixPeriod, if_pos runs]

theorem mixPeriod_silent {s : State} (still : s.engineRuns = false) (mics : List (Seat × Sample)) (remote : Option Sample) :
    s.mixPeriod mics remote = s.mix.silent := by
  rw [State.mixPeriod, still]
  rfl

theorem sampled_seat (m : Mix) (mics : List (Seat × Sample)) (remote : Int) (x : Seat) :
    (m.sampled mics remote).seats.get x = (m.seats.get x).fed (m.feedRaw mics remote x) := Tab.get_gen _ x

theorem silent_seat (m : Mix) (x : Seat) : m.silent.seats.get x = { m.seats.get x with feed := none } := Tab.get_gen _ x

theorem MixSeat.fed_online {t : MixSeat} (online : t.online = true) (raw : Int) :
    t.fed raw = { t with feed := some (sat24 raw), feedClip := t.feedClip || sat24 raw ≠ raw } := if_pos online

theorem MixSeat.fed_offline {t : MixSeat} (offline : t.online = false) (raw : Int) : t.fed raw = { t with feed := none } := by
  rw [MixSeat.fed, offline]
  rfl

/-- A sample period moves no target, applied code or multiplier. -/
theorem mixPeriod_gains (s : State) (mics : List (Seat × Sample)) (remote : Option Sample) (x : Seat) :
    ((s.mixPeriod mics remote).seats.get x).applied = (s.mix.seats.get x).applied ∧
      ((s.mixPeriod mics remote).seats.get x).target = (s.mix.seats.get x).target ∧
      ((s.mixPeriod mics remote).seats.get x).mult = (s.mix.seats.get x).mult ∧
      ((s.mixPeriod mics remote).seats.get x).online = (s.mix.seats.get x).online := by
  cases runs : s.engineRuns with
  | true =>
    rw [mixPeriod_running runs, sampled_seat]
    cases online : (s.mix.seats.get x).online with
    | true => rw [MixSeat.fed_online online]; exact ⟨rfl, rfl, rfl, online⟩
    | false => rw [MixSeat.fed_offline online]; exact ⟨rfl, rfl, rfl, online⟩
  | false =>
    rw [mixPeriod_silent runs, silent_seat]
    exact ⟨rfl, rfl, rfl, rfl⟩

theorem sat24_bounds (v : Int) : -8388608 ≤ sat24 v ∧ sat24 v ≤ 8388607 := clampInt_mem v (by decide)

theorem mixPeriod_programSend (s : State) (mics : List (Seat × Sample)) (remote : Option Sample) :
    -8388608 ≤ (s.mixPeriod mics remote).programSend ∧ (s.mixPeriod mics remote).programSend ≤ 8388607 := by
  cases runs : s.engineRuns with
  | true => rw [mixPeriod_running runs]; exact sat24_bounds _
  | false => rw [mixPeriod_silent runs]; exact ⟨(by decide : (-8388608 : Int) ≤ 0), (by decide : (0 : Int) ≤ 8388607)⟩

/-! ## The end of a block (R83) -/

theorem endBlock_running {s : State} (few : s.vdt.samples < 48) : s.endBlock = s := if_neg (Nat.not_le.mpr few)

theorem endBlock_full {s : State} (full : 48 ≤ s.vdt.samples) : s.endBlock = { s with scr := s.scr.millisecond }.detectorBlock := if_pos full

theorem exec_samplePeriod {s : State} (runs : s.pcu.audio = .running) (mics : List (Seat × Sample)) (remote : Option Sample) :
    exec (.samplePeriod mics remote) s = .next (s.endBlock.samplePeriod mics remote) := congrArg _ (if_pos runs)

theorem exec_samplePeriod_still {s : State} (stopped : s.pcu.audio ≠ .running) (mics : List (Seat × Sample)) (remote : Option Sample) :
    exec (.samplePeriod mics remote) s = .next s.audioStill := congrArg _ (if_neg stopped)

theorem exec_block {s : State} (runs : s.pcu.audio = .running) : exec .block s = .next s.endBlock := congrArg _ (if_pos runs)

/-- Settles O23. -/
theorem outputsOfASamplePeriod : Obligations.OutputsOfASamplePeriod := by
  intro mics remote s
  refine ⟨fun runs few => ?_, fun runs full => ?_, fun stopped => ?_⟩
  · refine ⟨s.samplePeriod mics remote, by rw [exec_samplePeriod runs, endBlock_running few], rfl, mixPeriod_programSend s mics remote, ?running,
      ?silent, mixPeriod_gains s mics remote, rfl, fun x => Tab.get_gen _ x, rfl, fun x => ?detector⟩
    case running =>
      intro engine
      rw [State.samplePeriod_mix, mixPeriod_running engine]
      have sum : s.mix.total (s.carriedMics mics) = (allSeats.map (s.heard mics)).sum := by rw [Mix.total, product_carriedMics]
      refine ⟨congrArg (fun v => sat24 (rnd14 v)) sum, ?_, ?_, rfl, fun x => ⟨fun offline => ?_, fun online => ?_⟩⟩
      · rw [Mix.sampled, sum]; rfl
      · rw [Mix.sampled, sum]; rfl
      · rw [sampled_seat, MixSeat.fed_offline offline]
        exact ⟨rfl, rfl⟩
      · rw [sampled_seat, MixSeat.fed_online online, feedRaw_carriedMics]
        exact ⟨rfl, rfl⟩
    case silent =>
      intro engine
      rw [State.samplePeriod_mix, mixPeriod_silent engine]
      exact ⟨rfl, rfl, rfl, rfl, fun x => by rw [silent_seat]; exact ⟨rfl, rfl⟩⟩
    case detector =>
      have peak : (if (s.vdt.seats.get x).online then (micOf (s.carriedMics mics) x).natAbs else 0) =
          if (s.vdt.seats.get x).online && s.carries x then (micOf mics x).natAbs else 0 := by
        rw [micOf_carriedMics]
        cases (s.vdt.seats.get x).online <;> cases s.carries x <;> rfl
      rw [State.samplePeriod_vdt, Vdt.sampled, Tab.get_gen]
      dsimp only
      rw [peak]
      rfl
  · have next_ : s.endBlock.vdt.samples = 0 := by rw [endBlock_full full]; rfl
    have runs' : s.endBlock.pcu.audio = .running := by rw [endBlock_full full]; exact runs
    refine ⟨_, exec_block runs, next_, ?_⟩
    rw [exec_samplePeriod runs, exec_samplePeriod runs', endBlock_running (s := s.endBlock) (by omega)]
  · refine ⟨_, exec_samplePeriod_still stopped mics remote, rfl, rfl, fun x => ⟨?_, ?_⟩⟩
    · rw [State.audioStill_mix, silent_seat]
    · simp

/-- Settles O24: the feed is a sum over the seats outside the exclusion set. -/
theorem feedHearsNoExcludedSeat : Obligations.FeedHearsNoExcludedSeat := by
  intro mics mics' remote x s t t' runs agree run run'
  have audio : s.pcu.audio = .running := by
    have := runs
    simp only [State.engineRuns, Bool.and_eq_true, decide_eq_true_eq] at this
    exact this.1
  rw [exec_samplePeriod audio] at run run'
  obtain ⟨rfl⟩ := run
  obtain ⟨rfl⟩ := run'
  have engine : s.endBlock.mix = s.mix ∧ s.endBlock.engineRuns = true := by
    unfold State.endBlock
    split
    · exact ⟨rfl, runs⟩
    · exact ⟨rfl, runs⟩
  generalize s.endBlock = u at engine
  obtain ⟨same, running⟩ := engine
  have feeds : u.feedOf mics remote x = u.feedOf mics' remote x := by
    unfold State.feedOf
    congr 5
    refine List.map_congr_left fun j outside => ?_
    have apart : excluded u.mix.radius x j = false := by simpa using (List.mem_filter.mp outside).2
    rw [State.heard, State.heard, agree j (same ▸ apart)]
  rw [State.samplePeriod_mix, State.samplePeriod_mix, mixPeriod_running running, mixPeriod_running running, sampled_seat, sampled_seat,
    feedRaw_carriedMics, feedRaw_carriedMics, feeds]

/-! ## The detector at the end of a block (R83 to R88) -/

theorem detectorBlock_seat (s : State) (x : Seat) :
    s.detectorBlock.vdt.seats.get x = ((s.vdt.seats.get x).blockEnd s.settings s.vdt.power).1 := Tab.get_gen _ x

/-- The reports of a block's end: each seat's own, if its step makes one. -/
def voiceReports (st : Settings) (v : Vdt) : List Instr :=
  allSeats.flatMap fun x => voiceReport x ((v.seats.get x).blockEnd st v.power).2

theorem mem_voiceReports (st : Settings) (v : Vdt) (x : Seat) :
    (.voiceOnset x ∈ voiceReports st v ↔ ((v.seats.get x).blockEnd st v.power).2 = some true) ∧
      (.voiceEnd x ∈ voiceReports st v ↔ ((v.seats.get x).blockEnd st v.power).2 = some false) := by
  have own (i : Instr) (y : Seat) (r : Option Bool) : i ∈ voiceReport y r ↔ (r = some true ∧ i = .voiceOnset y) ∨ (r = some false ∧ i = .voiceEnd y) := by
    match r with
    | none => simp [voiceReport]
    | some true => simp [voiceReport]
    | some false => simp [voiceReport]
  simp [voiceReports, own]

theorem mem_voiceReports_isVoice {st : Settings} {v : Vdt} {i : Instr} (h : i ∈ voiceReports st v) : ∃ x, i = .voiceOnset x ∨ i = .voiceEnd x := by
  obtain ⟨x, -, m⟩ := List.mem_flatMap.mp h
  refine ⟨x, ?_⟩
  match r : ((v.seats.get x).blockEnd st v.power).2 with
  | none => simp [r, voiceReport] at m
  | some true => simp [r, voiceReport] at m; exact .inl m
  | some false => simp [r, voiceReport] at m; exact .inr m

theorem detectorStep_whole (onset hold : Nat) (above : Bool) (v : VdtSeat) : (detectorStep onset hold above v).1.whole = v.whole := by
  unfold detectorStep
  cases v.state <;> dsimp only <;> split_ifs <;> rfl

/-- The record a block's end hands the detector step: its envelope is the larger of the block peak and the decayed one (R83). -/
def VdtSeat.blockInput (t : VdtSeat) : VdtSeat := { t with env := max t.peak (t.env - t.env / 16) }

/-- The detector step of a seat that took part in the whole block (R84, R85). -/
def VdtSeat.blockStep (st : Settings) (t : VdtSeat) : VdtSeat × Option Bool :=
  detectorStep st.onset st.hold (thresholdValue st.threshold ≤ max t.peak (t.env - t.env / 16)) t.blockInput

theorem blockEnd_took {st : Settings} {power : Option Power} {t : VdtSeat} (eligible : t.eligible power = true) (whole : t.whole = true) :
    t.blockEnd st power = ({ (t.blockStep st).1 with peak := 0 }, (t.blockStep st).2) := by
  have stays : (t.blockStep st).1.whole = true := (detectorStep_whole ..).trans whole
  have took : t.blockEnd st power = ({ (t.blockStep st).1 with peak := 0, whole := true }, (t.blockStep st).2) :=
    if_pos (by rw [eligible, whole]; rfl)
  rw [took, ← stays]

theorem blockEnd_left {st : Settings} {power : Option Power} {t : VdtSeat} (out : t.eligible power = false ∨ t.whole = false) :
    t.blockEnd st power = ({ t with peak := 0, whole := t.eligible power }, none) := by
  rw [VdtSeat.blockEnd, if_neg]
  obtain out | out := out <;> simp [out]

theorem detectorStep_env (onset hold : Nat) (above : Bool) (v : VdtSeat) : (detectorStep onset hold above v).1.env = v.env := by
  unfold detectorStep
  cases v.state <;> dsimp only <;> split_ifs <;> rfl

theorem detectorStep_held (onset hold : Nat) (above : Bool) (v : VdtSeat) :
    (detectorStep onset hold above v).1.online = v.online ∧ (detectorStep onset hold above v).1.floorEligible = v.floorEligible := by
  unfold detectorStep
  cases v.state <;> dsimp only <;> split_ifs <;> exact ⟨rfl, rfl⟩

theorem blockEnd_held (st : Settings) (power : Option Power) (t : VdtSeat) :
    (t.blockEnd st power).1.peak = 0 ∧ (t.blockEnd st power).1.online = t.online ∧
      (t.blockEnd st power).1.floorEligible = t.floorEligible := by
  by_cases took : t.eligible power = true ∧ t.whole = true
  · rw [blockEnd_took took.1 took.2]
    exact ⟨rfl, detectorStep_held ..⟩
  · rw [blockEnd_left (by rwa [not_and_or, Bool.not_eq_true, Bool.not_eq_true] at took)]
    exact ⟨rfl, rfl, rfl⟩

/-- Settles O30: every seat makes its own step, and the reports are those of the steps. -/
theorem blockEndsAtEverySeat : Obligations.BlockEndsAtEverySeat := by
  intro s
  refine ⟨fun not_ => ?_, fun runs full => ?_⟩
  · by_cases runs : s.pcu.audio = .running
    · rw [exec_block runs, endBlock_running (by simpa [runs] using not_)]
    · exact congrArg _ (if_neg runs)
  · refine ⟨({ s with scr := s.scr.millisecond } : State).detectorBlock, by rw [exec_block runs, endBlock_full full], rfl, rfl, rfl,
      voiceReports s.settings s.vdt, rfl, fun i => mem_voiceReports_isVoice, fun x => ?_⟩
    dsimp only
    obtain ⟨onsets, ends⟩ := mem_voiceReports s.settings s.vdt x
    rw [show ({ s with scr := s.scr.millisecond } : State).detectorBlock.vdt.seats.get x = _ from detectorBlock_seat _ x]
    obtain ⟨peak, online, floor⟩ := blockEnd_held s.settings s.vdt.power (s.vdt.seats.get x)
    refine ⟨peak, online, floor, fun eligible whole => ?_, fun out => ?_⟩
    · rw [blockEnd_took eligible whole] at onsets ends ⊢
      refine ⟨detectorStep_env .., rfl, onsets, ends, fun below => ?_, fun above => ?_⟩
      · have step : (s.vdt.seats.get x).blockStep s.settings =
            detectorStep s.settings.onset s.settings.hold false (s.vdt.seats.get x).blockInput := by
          rw [VdtSeat.blockStep, decide_eq_false (Nat.not_le.mpr below)]
        rw [onsets, ends, step]
        refine ⟨fun quiet => ?_, fun onset => ?_, fun voice => ?_, fun hold more => ?_, fun hold last => ?_⟩
        · simp [detectorStep, VdtSeat.blockInput, quiet]
        · simp [detectorStep, VdtSeat.blockInput, onset]
        · simp [detectorStep, VdtSeat.blockInput, voice]
        · simp [detectorStep, VdtSeat.blockInput, hold, show ¬ (s.vdt.seats.get x).hold ≤ 1 by omega]
        · simp [detectorStep, VdtSeat.blockInput, hold, last]
      · have step : (s.vdt.seats.get x).blockStep s.settings =
            detectorStep s.settings.onset s.settings.hold true (s.vdt.seats.get x).blockInput := by
          rw [VdtSeat.blockStep, decide_eq_true above]
        rw [onsets, ends, step]
        refine ⟨fun quiet more => ?_, fun quiet one => ?_, fun onset more => ?_, fun onset last => ?_, fun voice => ?_, fun hold => ?_⟩
        · simp [detectorStep, VdtSeat.blockInput, quiet, show ¬ s.settings.onset ≤ 1 by omega]
        · simp [detectorStep, VdtSeat.blockInput, quiet, one]
        · simp [detectorStep, VdtSeat.blockInput, onset, show ¬ s.settings.onset ≤ (s.vdt.seats.get x).count + 1 by omega]
        · simp [detectorStep, VdtSeat.blockInput, onset, last]
        · simp [detectorStep, VdtSeat.blockInput, voice]
        · simp [detectorStep, VdtSeat.blockInput, hold]
    · rw [blockEnd_left out] at onsets ends ⊢
      exact ⟨rfl, by simp [onsets], by simp [ends]⟩

/-! ## Loss of eligibility (R87, R88) -/

theorem judgeSeat_ne (s : State) {x y : Seat} (n : y ≠ x) (edit : VdtSeat → VdtSeat) :
    (s.judgeSeat x edit).vdt.seats.get y = s.vdt.seats.get y := by
  simp [State.judgeSeat, Tab.get_upd, n]

theorem rejudged_held (was now : Bool) (samples : Nat) (t : VdtSeat) :
    (t.rejudged was now samples).online = t.online ∧ (t.rejudged was now samples).floorEligible = t.floorEligible := by
  unfold VdtSeat.rejudged
  split_ifs <;> exact ⟨rfl, rfl⟩

theorem judgeSeat_held (s : State) (x : Seat) (edit : VdtSeat → VdtSeat) :
    ((s.judgeSeat x edit).vdt.seats.get x).online = (edit (s.vdt.seats.get x)).online ∧
      ((s.judgeSeat x edit).vdt.seats.get x).floorEligible = (edit (s.vdt.seats.get x)).floorEligible := by
  simp [State.judgeSeat, rejudged_held]

/-- A seat that ceases to be eligible returns to QUIET, and reports its voice end from VOICE and HOLD. -/
theorem judgeSeat_loses (s : State) {x : Seat} {edit : VdtSeat → VdtSeat} (was : (s.vdt.seats.get x).eligible s.vdt.power = true)
    (now : (edit (s.vdt.seats.get x)).eligible s.vdt.power = false) :
    (s.judgeSeat x edit).vdt.seats.get x = { edit (s.vdt.seats.get x) with state := .quiet, env := 0, count := 0, hold := 0, whole := false } ∧
      (s.judgeSeat x edit).flight = s.flight ++
        if (s.vdt.seats.get x).state = .voice ∨ (s.vdt.seats.get x).state = .hold then [.voiceEnd x] else [] := by
  simp [State.judgeSeat, was, now, VdtSeat.rejudged]

theorem exec_presenceReportAtVdt (x : Seat) (p : Presence) (s : State) : exec (.presenceReportAtVdt x p) s =
    .next ((s.taking (.presenceReportAtVdt x p)).judgeSeat x fun t => { t with online := p = .online }) := rfl

theorem exec_eligibilityReport (x : Seat) (b : Bool) (s : State) : exec (.eligibilityReport x b) s =
    .next ((s.taking (.eligibilityReport x b)).judgeSeat x fun t => { t with floorEligible := b }) := rfl

/-- Settles O32: both reports judge the seat afresh. -/
theorem eligibilityReportsAtTheDetector : Obligations.EligibilityReportsAtTheDetector := by
  intro x p b s
  refine ⟨⟨_, exec_presenceReportAtVdt x p s, rfl, fun y n => judgeSeat_ne _ n _,
    by rw [(judgeSeat_held _ x _).1, decide_eq_true_eq], (judgeSeat_held _ x _).2, fun was lost => ?_⟩, ⟨_, exec_eligibilityReport x b s, rfl, fun y n => judgeSeat_ne _ n _, (judgeSeat_held _ x _).2,
    (judgeSeat_held _ x _).1, fun was lost => ?_⟩⟩
  · obtain ⟨seat, flight⟩ := judgeSeat_loses (s.taking (.presenceReportAtVdt x p)) (x := x)
      (edit := fun t => { t with online := p = .online }) was (by simp [VdtSeat.eligible, lost])
    rw [seat]
    exact ⟨rfl, rfl, rfl, rfl, flight⟩
  · obtain ⟨seat, flight⟩ := judgeSeat_loses (s.taking (.eligibilityReport x b)) (x := x)
      (edit := fun t => { t with floorEligible := b }) was (by simp [VdtSeat.eligible, lost])
    rw [seat]
    exact ⟨rfl, rfl, rfl, rfl, flight⟩

/-! ## The gain plan (R57 to R62) -/

/-- Once planned, every target is R60's. -/
theorem targetsPlanned_of_planned {t : State} {m : Mix} (planned : t.mix = m.planned t.settings) : TargetsPlanned t := by
  intro x
  have target : (t.mix.seats.get x).target = m.targetOf t.settings x := by rw [planned]; exact congrArg MixSeat.target (Tab.get_gen _ x)
  have floor : t.mix.speakers = m.speakers ∧ t.mix.mute = m.mute ∧ t.mix.overriding = m.overriding ∧ t.mix.policy = m.policy := by
    rw [planned]; exact ⟨rfl, rfl, rfl, rfl⟩
  obtain ⟨speakers, mute, overriding, policy⟩ := floor
  rw [target, speakers, mute, overriding, policy, Mix.targetOf]
  refine ⟨fun absent => ?_, fun muted => ?_, fun e unmuted found => ?_⟩
  · rw [List.find?_eq_none.mpr (by simpa using absent)]
  · split
    · rfl
    · rw [if_pos muted]
  · rw [found]
    dsimp only
    rw [if_neg (by simp [unmuted])]
    simp [duckTerm, and_assoc]

theorem onlyTargets_planned (st : Settings) (m : Mix) : OnlyTargets m (m.planned st) :=
  ⟨rfl, fun x => by rw [Mix.planned, Tab.get_gen]⟩

theorem setNumber_replan (s : State) (c : Instr) (r : CmdRef) {lo hi : Int} (n : Int) {set : Int → State → State} (st : Settings)
    (sets : set (clampInt lo hi n) (s.taking c) = ({ s.taking c with settings := st } : State).replan) :
    (s.taking c).setNumber r lo hi (some n) i16 set = { NumberSet c r lo hi n st s with mix := s.mix.planned st } := by
  rw [setNumber_clamped, sets]
  rfl

/-- Settles O28: every input and every setting of the plan recomputes it. -/
theorem targetsFollowTheGainPlan : Obligations.TargetsFollowTheGainPlan := by
  intro v b x p r n s
  refine ⟨⟨_, rfl, rfl, targetsPlanned_of_planned rfl, onlyTargets_planned _ _⟩, ⟨_, rfl, rfl, targetsPlanned_of_planned rfl, onlyTargets_planned _ _⟩,
    ⟨_, rfl, rfl, rfl, fun y => Tab.get_upd ..⟩, fun full => ?_⟩
  have run (c : Instr) (effect : State → State) : (s.taking c).whenFull r effect = effect (s.taking c) := whenFull_full r effect full
  refine ⟨?master, ?trim, ?duck, ?nom⟩
  case master =>
    exact ⟨_, next_congr ((run _ _).trans (setNumber_replan s _ r n _ rfl)), targetsPlanned_of_planned rfl, onlyTargets_planned _ _, rfl⟩
  case trim =>
    exact ⟨_, next_congr ((run _ _).trans (setNumber_replan s _ r n _ rfl)), targetsPlanned_of_planned rfl, onlyTargets_planned _ _, rfl⟩
  case duck =>
    exact ⟨_, next_congr ((run _ _).trans (setNumber_replan s _ r n _ rfl)), targetsPlanned_of_planned rfl, onlyTargets_planned _ _, rfl⟩
  case nom => exact ⟨_, next_congr (run _ _), targetsPlanned_of_planned rfl, onlyTargets_planned _ _, rfl⟩

end Sys2Proof.Machine
end

section
/-! PROOF. The room lines (chapter 8): the outputs, the sampling of the inputs, and the line commands. -/

namespace Sys2Proof.Machine

open Sys2Proof

/-! ## Outputs (R158, R159) -/

theorem Rln.pin_driven (r : Rln) {c : LineConfig} (output : c.direction = .output) (driven : c.released = false) :
    r.pin c = some (if c.level = .high && (r.signal c.fn).getD true then .high else .low) := by
  simp [Rln.pin, output, driven]

theorem Rln.pin_released (r : Rln) {c : LineConfig} (released : c.released = true) : r.pin c = none := by
  unfold Rln.pin
  cases c.direction <;> simp [released]

theorem Rln.pin_low (r : Rln) {c : LineConfig} (output : c.direction = .output) (driven : c.released = false) (low : c.level = .low) :
    r.pin c = some .low := by
  simp [r.pin_driven output driven, low]

/-- A driven line of general level HIGH shows its signal. -/
theorem Rln.pin_signal (r : Rln) {c : LineConfig} (output : c.direction = .output) (driven : c.released = false) (high : c.level = .high)
    {fn : LineFn} {b : Bool} (signal : r.signal fn = some b) : r.pin { c with fn := fn } = some (if b then .high else .low) := by
  rw [r.pin_driven (c := { c with fn := fn }) output driven]
  simp [high, signal]

theorem Rln.pin_general (r : Rln) {c : LineConfig} (output : c.direction = .output) (driven : c.released = false) (high : c.level = .high) :
    r.pin { c with fn := .general } = some .high := by
  rw [r.pin_driven (c := { c with fn := .general }) output driven]
  simp [high, Rln.signal]

/-- Settles O45: each report sets its own signal. -/
theorem signalsDriveTheLines : Obligations.SignalsDriveTheLines := by
  intro b c s output driven high
  have pin (r : Rln) {fn : LineFn} {v : Bool} (signal : r.signal fn = some v) := r.pin_signal output driven high signal
  have general (r : Rln) := r.pin_general output driven high
  refine ⟨fun fn => ⟨Rln.pin_low _ output driven rfl, Rln.pin_released _ rfl, Rln.pin_released _ rfl⟩,
    ⟨_, rfl, rfl, rfl, pin _ rfl, general _, rfl⟩, ⟨_, rfl, rfl, rfl, ?live, general _, rfl⟩, ⟨_, rfl, rfl, rfl, ?blink, general _, rfl⟩,
    ⟨_, rfl, rfl, rfl, pin (v := true) _ rfl, general _, rfl⟩, ⟨_, rfl, rfl, pin (v := false) _ rfl⟩,
    fun k runs => ⟨_, rfl, rfl, ?phase, ?phasePin⟩⟩
  case live => rw [pin (v := !b) _ rfl]; cases b <;> rfl
  case blink => rw [pin (v := b) _ (by cases b <;> rfl)]
  case phase => simp [runs, blinkPhase, unitsOfMs]
  case phasePin =>
    rw [pin (v := !k.on) _ (by simp [Rln.signal, runs])]
    cases k.on <;> rfl

/-! ## One sample of one line (R160) -/

theorem sampled_settled {t : LineState} {level : PinLevel} (settled : t.settled = some level) : t.sampled level = ({ t with run := none }, none) :=
  if_pos settled

theorem sampled_fresh {t : LineState} {level : PinLevel} (other : t.settled ≠ some level) (fresh : ∀ m, t.run ≠ some (level, m)) :
    t.sampled level = ({ t with run := some (level, 1) }, none) := by
  rw [LineState.sampled, if_neg other]
  match run : t.run with
  | none => rfl
  | some (l, n) =>
    have differs : l ≠ level := fun same => fresh n (same ▸ run)
    simp [differs]

theorem sampled_counting {t : LineState} {level : PinLevel} {n : Nat} (other : t.settled ≠ some level) (run : t.run = some (level, n)) (few : n < 2) :
    t.sampled level = ({ t with run := some (level, n + 1) }, none) := by
  simp [LineState.sampled, other, run, show n + 1 < 3 by omega]

/-- The third sample in a row settles the line, with an edge where its level was known. -/
theorem sampled_third {t : LineState} {level : PinLevel} (other : t.settled ≠ some level) (run : t.run = some (level, 2)) :
    t.sampled level = ({ t with settled := some level, run := none },
      if t.settled.isSome then some (if level = .high then .rise else .fall) else none) := by
  simp [LineState.sampled, other, run]

/-- A sample at another level counts, and settles the line when the count is 3. -/
theorem sampled_counted {t : LineState} {level : PinLevel} (other : t.settled ≠ some level) :
    ∃ n, t.sampled level = if n < 3 then ({ t with run := some (level, n) }, none) else ({ t with settled := some level, run := none },
      if t.settled.isSome then some (if level = .high then .rise else .fall) else none) := ⟨_, if_neg other⟩

theorem sampled_edge {t : LineState} {level : PinLevel} {e : LineEdge} (h : (t.sampled level).2 = some e) :
    e = if level = .high then .rise else .fall := by
  by_cases settled : t.settled = some level
  · rw [sampled_settled settled] at h
    cases h
  · obtain ⟨n, counted⟩ := sampled_counted settled
    rw [counted] at h
    split_ifs at h <;> simp_all

theorem sampled_marks (t : LineState) (level : PinLevel) :
    (t.sampled level).1.suppressed = t.suppressed ∧ (t.sampled level).1.flag = t.flag := by
  by_cases settled : t.settled = some level
  · rw [sampled_settled settled]
    exact ⟨rfl, rfl⟩
  · obtain ⟨n, counted⟩ := sampled_counted settled
    rw [counted]
    split_ifs <;> exact ⟨rfl, rfl⟩

/-- The edge that the sample of a line brings and its configuration takes (R160). -/
def lineEdge (s : State) (levels : Tab PinLevel 8) (l : Line) : Option LineEdge :=
  match (s.settings.line.get l).direction with
  | .output => none
  | .input => ((s.rln.lines.get l).sampled (levels.get l)).2.filter (includesEdge (s.settings.line.get l).edges)

/-- A line after its sample. -/
def lineAfter (s : State) (levels : Tab PinLevel 8) (l : Line) : LineState :=
  match (s.settings.line.get l).direction with
  | .output => s.rln.lines.get l
  | .input =>
    let t := ((s.rln.lines.get l).sampled (levels.get l)).1
    { t with flag := t.flag || (lineEdge s levels l).isSome }

/-- What a qualifying edge sends (R160, R161, R162). -/
def lineReports (s : State) (levels : Tab PinLevel 8) (l : Line) : List Instr :=
  match lineEdge s levels l with
  | none => []
  | some e =>
    (if (s.settings.line.get l).notice then [Instr.notice .line (linePayload l e (levels.get l) (s.settings.line.get l).fn)] else [])
      ++ (if (s.settings.line.get l).fn = LineFn.occupancy then [Instr.occupancyEdge l e] else [])
      ++ (if (s.settings.line.get l).wake && lowPower s.rln.power && !(s.rln.lines.get l).suppressed then [Instr.wakeRequest .line] else [])

theorem lineEdge_level {s : State} {levels : Tab PinLevel 8} {l : Line} {e : LineEdge} (h : lineEdge s levels l = some e) :
    (s.settings.line.get l).direction = .input ∧ includesEdge (s.settings.line.get l).edges e = true ∧
      e = if levels.get l = .high then .rise else .fall := by
  unfold lineEdge at h
  split at h
  · cases h
  · rename_i input
    obtain ⟨edge, takes⟩ := Option.filter_eq_some_iff.mp h
    exact ⟨input, takes, sampled_edge edge⟩

theorem levelAfter_edge (level : PinLevel) : levelAfter (if level = .high then .rise else .fall) = level := by cases level <;> rfl

/-- The sampling of one line changes that line and sends what its edge asks for. -/
theorem sampleLine_spec (s : State) (levels : Tab PinLevel 8) (l : Line) :
    s.sampleLine l (levels.get l) = { s with rln := { s.rln with lines := (s.sampleLine l (levels.get l)).rln.lines }
                                             flight := s.flight ++ lineReports s levels l } ∧
      ∀ k, (s.sampleLine l (levels.get l)).rln.lines.get k = if k = l then lineAfter s levels l else s.rln.lines.get k := by
  unfold State.sampleLine
  cases direction : (s.settings.line.get l).direction with
  | output =>
    have silent : lineReports s levels l = [] := by simp [lineReports, lineEdge, direction]
    refine ⟨by simp [silent], fun k => ?_⟩
    by_cases own : k = l
    · simp [own, lineAfter, direction]
    · simp [own]
  | input =>
    dsimp only
    cases sampled : ((s.rln.lines.get l).sampled (levels.get l)).2 with
    | none =>
      have quiet : lineEdge s levels l = none := by simp [lineEdge, direction, sampled]
      refine ⟨by simp [lineReports, quiet, Rln.put], fun k => ?_⟩
      simp [Rln.put, Tab.get_upd, lineAfter, direction, quiet]
    | some e =>
      have level := sampled_edge sampled
      obtain ⟨suppressed, flag⟩ := sampled_marks (s.rln.lines.get l) (levels.get l)
      dsimp only
      unfold State.takeEdge
      dsimp only
      cases takes : includesEdge (s.settings.line.get l).edges e with
      | true =>
        have edge : lineEdge s levels l = some e := by simp [lineEdge, direction, sampled, Option.filter, takes]
        have after : levelAfter e = levels.get l := level ▸ levelAfter_edge _
        refine ⟨by simp [lineReports, edge, Rln.put, State.emit, suppressed, after], fun k => ?_⟩
        by_cases own : k = l
        · simp [Rln.put, own, lineAfter, direction, edge]
        · simp [Rln.put, Tab.get_upd, own]
      | false =>
        have quiet : lineEdge s levels l = none := by simp [lineEdge, direction, sampled, Option.filter, takes]
        refine ⟨by simp [lineReports, quiet, Rln.put], fun k => ?_⟩
        simp [Rln.put, Tab.get_upd, lineAfter, direction, quiet]

/-! ## The sampling of all lines -/

theorem mem_allLines (l : Line) : l ∈ allLines := List.mem_finRange l

/-- The state after the sampling of some lines, each once. -/
structure LinesSampled (s : State) (levels : Tab PinLevel 8) (done : List Line) (u : State) : Prop where
  frame : u = { s with rln := { s.rln with lines := u.rln.lines }, flight := u.flight }
  lines : ∀ l, u.rln.lines.get l = if l ∈ done then lineAfter s levels l else s.rln.lines.get l
  flight : u.flight = s.flight ++ done.flatMap (lineReports s levels)

theorem linesSampled_none (s : State) (levels : Tab PinLevel 8) : LinesSampled s levels [] s := ⟨rfl, by simp, by simp⟩

/-- A line not sampled yet stands as at the start, so its sample does what it would have done then. -/
theorem LinesSampled.untouched {s : State} {levels : Tab PinLevel 8} {done : List Line} {u : State} (h : LinesSampled s levels done u) {l : Line}
    (fresh : l ∉ done) : lineAfter u levels l = lineAfter s levels l ∧ lineReports u levels l = lineReports s levels l := by
  have settings : u.settings = s.settings := by rw [h.frame]
  have power : u.rln.power = s.rln.power := by rw [h.frame]
  have line : u.rln.lines.get l = s.rln.lines.get l := by rw [h.lines, if_neg fresh]
  have edge : lineEdge u levels l = lineEdge s levels l := by rw [lineEdge, lineEdge, settings, line]
  constructor
  · rw [lineAfter, lineAfter, settings, line, edge]
  · rw [lineReports, lineReports, settings, line, edge, power]

theorem LinesSampled.next {s : State} {levels : Tab PinLevel 8} {done : List Line} {u : State} (h : LinesSampled s levels done u) {l : Line}
    (fresh : l ∉ done) : LinesSampled s levels (done ++ [l]) (u.sampleLine l (levels.get l)) := by
  obtain ⟨frame, lines⟩ := sampleLine_spec u levels l
  obtain ⟨after, reports⟩ := h.untouched fresh
  generalize u.sampleLine l (levels.get l) = v at frame lines
  refine ⟨?_, fun k => ?_, ?_⟩
  · rw [frame, h.frame]
  · rw [lines, after, h.lines]
    by_cases own : k = l
    · simp [own]
    · simp [own]
  · rw [frame, reports, h.flight]
    simp

theorem linesSampled_foldl {s : State} {levels : Tab PinLevel 8} (rest done : List Line) {u : State} (h : LinesSampled s levels done u)
    (once : (done ++ rest).Nodup) :
    LinesSampled s levels (done ++ rest) (rest.foldl (fun t l => t.sampleLine l (levels.get l)) u) := by
  induction rest generalizing done u with
  | nil => simpa using h
  | cons l rest ih =>
    have fresh : l ∉ done := fun m => (List.nodup_append.mp once).2.2 l m l (List.mem_cons_self ..) rfl
    rw [List.foldl_cons, List.append_cons]
    exact ih (done ++ [l]) (h.next fresh) (by rwa [← List.append_cons])

/-- The lines after all samples, before the combined levels are told; the timers of the room crystal ran down first. -/
def State.lineSampled (s : State) (levels : Tab PinLevel 8) : State :=
  allLines.foldl (fun t l => t.sampleLine l (levels.get l)) s.tickTimers

theorem exec_lineSample (s : State) (levels : Tab PinLevel 8) : exec (.lineSample levels) s = .next (s.lineSampled levels).tellLevels := rfl

/-- Every line is sampled once. -/
theorem linesSampled_all (s : State) (levels : Tab PinLevel 8) : LinesSampled s.tickTimers levels allLines (s.lineSampled levels) :=
  linesSampled_foldl allLines [] (linesSampled_none _ levels) (List.nodup_finRange 8)

theorem lineAfter_tickTimers (s : State) (levels : Tab PinLevel 8) (l : Line) : lineAfter s.tickTimers levels l = lineAfter s levels l := rfl

theorem lineReports_tickTimers (s : State) (levels : Tab PinLevel 8) : lineReports s.tickTimers levels = lineReports s levels := rfl

/-! ## The combined levels (R161) -/

/-- What is told of a combined level after the due report was sent. -/
def Rln.toldAfter (r : Rln) (st : Settings) (fn : LineFn) (told : Option Bool) : Option Bool := (r.levelDue st fn told).or told

theorem Rln.combined_iff (r : Rln) (st : Settings) (fn : LineFn) : r.combined st fn = true ↔
    ∃ k, (st.line.get k).direction = .input ∧ (st.line.get k).fn = fn ∧ (r.lines.get k).settled = some (assertedLevel fn) := by
  simp [Rln.combined, serves, allLines, and_assoc]

theorem Rln.allSettled_iff (r : Rln) (st : Settings) (fn : LineFn) : r.allSettled st fn = false ↔
    ∃ k, (st.line.get k).direction = .input ∧ (st.line.get k).fn = fn ∧ (r.lines.get k).settled = none := by
  simp [Rln.allSettled, serves, allLines, and_assoc]

theorem Rln.toldAfter_none (r : Rln) (st : Settings) (fn : LineFn) (told : Option Bool) :
    r.toldAfter st fn told = none ↔ told = none ∧ r.allSettled st fn = false := by
  unfold Rln.toldAfter Rln.levelDue
  cases told with
  | none => cases r.allSettled st fn <;> simp
  | some b => by_cases same : r.combined st fn = b <;> simp [same]

/-- What is told is the combined level. -/
theorem Rln.toldAfter_some {r : Rln} {st : Settings} {fn : LineFn} {told : Option Bool} {b : Bool} (h : r.toldAfter st fn told = some b) :
    b = r.combined st fn := by
  unfold Rln.toldAfter Rln.levelDue at h
  cases told with
  | none =>
    cases settled : r.allSettled st fn with
    | true => simpa [settled, eq_comm] using h
    | false => simp [settled] at h
  | some c =>
    by_cases same : r.combined st fn = c
    · simpa [same, eq_comm] using h
    · simpa [same, eq_comm] using h

/-- A level told anew was due. -/
theorem Rln.levelDue_of_new {r : Rln} {st : Settings} {fn : LineFn} {told : Option Bool} {b : Bool} (now : r.toldAfter st fn told = some b)
    (new : told ≠ some b) : r.levelDue st fn told = some b := by
  unfold Rln.toldAfter at now
  cases due : r.levelDue st fn told with
  | none => exact absurd (by simpa [due] using now) new
  | some c => simpa [due] using now

theorem tellLevels_rln (s : State) : s.tellLevels.rln = { s.rln with
    muteTold := s.rln.toldAfter s.settings .muteSwitch s.rln.muteTold
    supplyTold := s.rln.toldAfter s.settings .supplyWarn s.rln.supplyTold } := rfl

/-- The reports of the combined levels that are due. -/
def levelReports (r : Rln) (st : Settings) : List Instr :=
  (r.levelDue st .muteSwitch r.muteTold).toList.flatMap (fun b => [Instr.muteSwitchAtMix b, Instr.muteSwitchAtFlc b])
    ++ (r.levelDue st .supplyWarn r.supplyTold).toList.map Instr.supplyWarningReport

theorem tellLevels_flight (s : State) : s.tellLevels.flight = s.flight ++ levelReports s.rln s.settings := rfl

theorem levelReports_levels {r : Rln} {st : Settings} {i : Instr} (h : i ∈ levelReports r st) :
    ∃ b, i = .muteSwitchAtMix b ∨ i = .muteSwitchAtFlc b ∨ i = .supplyWarningReport b := by
  simp only [levelReports, List.mem_append, List.mem_flatMap, List.mem_map, List.mem_cons, List.not_mem_nil, or_false] at h
  obtain ⟨b, -, i | i⟩ | ⟨b, -, i⟩ := h
  · exact ⟨b, .inl i⟩
  · exact ⟨b, .inr (.inl i)⟩
  · exact ⟨b, .inr (.inr i.symm)⟩

/-! ## LINE_SAMPLE (R160 to R162) -/

theorem tickTimers_flight (s : State) : s.tickTimers.flight = s.flight := rfl

theorem lineAfter_output {s : State} {levels : Tab PinLevel 8} {l : Line} (output : (s.settings.line.get l).direction = .output) :
    lineAfter s levels l = s.rln.lines.get l := by rw [lineAfter, output]

/-- A sample that brings no edge leaves the flag. -/
theorem lineAfter_still {s : State} {levels : Tab PinLevel 8} {l : Line} {t : LineState} (input : (s.settings.line.get l).direction = .input)
    (sampled : (s.rln.lines.get l).sampled (levels.get l) = (t, none)) : lineAfter s levels l = t := by
  simp [lineAfter, lineEdge, input, sampled]

/-- A known level that changed (R160). -/
theorem lineEdge_changed {s : State} {levels : Tab PinLevel 8} {l : Line} {old : PinLevel} (input : (s.settings.line.get l).direction = .input)
    (settled : (s.rln.lines.get l).settled = some old) (other : old ≠ levels.get l) (run : (s.rln.lines.get l).run = some (levels.get l, 2)) :
    lineEdge s levels l = (some (if levels.get l = .high then .rise else .fall)).filter (includesEdge (s.settings.line.get l).edges) := by
  simp [lineEdge, input, sampled_third (by simp [settled, other]) run, settled]

theorem lineAfter_changed {s : State} {levels : Tab PinLevel 8} {l : Line} {old : PinLevel} (input : (s.settings.line.get l).direction = .input)
    (settled : (s.rln.lines.get l).settled = some old) (other : old ≠ levels.get l) (run : (s.rln.lines.get l).run = some (levels.get l, 2)) :
    lineAfter s levels l = { s.rln.lines.get l with
      settled := some (levels.get l), run := none
      flag := (s.rln.lines.get l).flag || includesEdge (s.settings.line.get l).edges (if levels.get l = .high then .rise else .fall) } := by
  have edge := lineEdge_changed input settled other run
  rw [lineAfter, input]
  dsimp only
  rw [edge, sampled_third (by simp [settled, other]) run]
  cases takes : includesEdge (s.settings.line.get l).edges (if levels.get l = .high then .rise else .fall) <;> simp [Option.filter, takes]

theorem mem_lineReports {s : State} {levels : Tab PinLevel 8} {l : Line} {i : Instr} : i ∈ lineReports s levels l ↔
    ∃ e, lineEdge s levels l = some e ∧
      (((s.settings.line.get l).notice = true ∧ i = .notice .line (linePayload l e (levels.get l) (s.settings.line.get l).fn)) ∨
        ((s.settings.line.get l).fn = .occupancy ∧ i = .occupancyEdge l e) ∨
        (((s.settings.line.get l).wake = true ∧ lowPower s.rln.power = true ∧ (s.rln.lines.get l).suppressed = false) ∧
          i = .wakeRequest .line)) := by
  unfold lineReports
  cases lineEdge s levels l with
  | none => simp
  | some e => simp [and_assoc]

theorem lowPower_iff (p : Option Power) : lowPower p = true ↔ p = some .quiet ∨ p = some .sleep := by
  simp [lowPower]

section
variable {s u : State} {levels : Tab PinLevel 8} (sampled : LinesSampled s.tickTimers levels allLines u)
include sampled

theorem LinesSampled.line (l : Line) : u.tellLevels.rln.lines.get l = lineAfter s levels l := by
  rw [tellLevels_rln, sampled.lines, if_pos (mem_allLines l), lineAfter_tickTimers]

theorem LinesSampled.settings : u.settings = s.settings := by rw [sampled.frame]; rfl

/-- What was told of the combined levels, and what is told after the sampling. -/
theorem LinesSampled.told : u.tellLevels.rln.muteTold = u.rln.toldAfter s.settings .muteSwitch s.rln.muteTold ∧
    u.tellLevels.rln.supplyTold = u.rln.toldAfter s.settings .supplyWarn s.rln.supplyTold := by
  have mute : u.rln.muteTold = s.rln.muteTold := by rw [sampled.frame]; rfl
  have supply : u.rln.supplyTold = s.rln.supplyTold := by rw [sampled.frame]; rfl
  rw [tellLevels_rln, mute, supply, sampled.settings]
  exact ⟨rfl, rfl⟩

theorem LinesSampled.mem_flight {i : Instr} : i ∈ u.tellLevels.flight ↔
    i ∈ s.flight ∨ (∃ l, i ∈ lineReports s levels l) ∨ i ∈ levelReports u.rln s.settings := by
  rw [tellLevels_flight, sampled.flight, sampled.settings, lineReports_tickTimers, tickTimers_flight]
  simp [mem_allLines]

/-- The levels due are told. -/
theorem LinesSampled.tells (b : Bool) :
    (u.rln.levelDue s.settings .muteSwitch s.rln.muteTold = some b →
      .muteSwitchAtMix b ∈ u.tellLevels.flight ∧ .muteSwitchAtFlc b ∈ u.tellLevels.flight) ∧
    (u.rln.levelDue s.settings .supplyWarn s.rln.supplyTold = some b → .supplyWarningReport b ∈ u.tellLevels.flight) := by
  have mute : u.rln.muteTold = s.rln.muteTold := by rw [sampled.frame]; rfl
  have supply : u.rln.supplyTold = s.rln.supplyTold := by rw [sampled.frame]; rfl
  refine ⟨fun due => ⟨sampled.mem_flight.mpr (.inr (.inr ?_)), sampled.mem_flight.mpr (.inr (.inr ?_))⟩,
    fun due => sampled.mem_flight.mpr (.inr (.inr ?_))⟩
  · simp [levelReports, mute, due]
  · simp [levelReports, mute, due]
  · simp [levelReports, supply, due]

/-- A LINE notice is one of a qualifying edge of a line whose notices are on. -/
theorem LinesSampled.notice {p : List Byte} (m : .notice .line p ∈ u.tellLevels.flight) : .notice .line p ∈ s.flight ∨ ∃ k,
    let edge := if levels.get k = .high then LineEdge.rise else .fall
    (s.settings.line.get k).direction = .input ∧ (s.settings.line.get k).notice = true ∧
      includesEdge (s.settings.line.get k).edges edge = true ∧ p = linePayload k edge (levels.get k) (s.settings.line.get k).fn := by
  obtain old | ⟨k, own⟩ | told := sampled.mem_flight.mp m
  · exact .inl old
  · refine .inr ⟨k, ?_⟩
    obtain ⟨e, edge, which⟩ := mem_lineReports.mp own
    obtain ⟨input, includes, rfl⟩ := lineEdge_level edge
    obtain ⟨on, payload⟩ | ⟨_, other⟩ | ⟨_, other⟩ := which
    · cases payload
      exact ⟨input, on, includes, rfl⟩
    · cases other
    · cases other
  · obtain ⟨b, i | i | i⟩ := levelReports_levels told <;> cases i

/-- Without a line that may wake the room, none does. -/
theorem LinesSampled.sleeps (still : ∀ k, (s.settings.line.get k).wake = false ∨ (s.rln.lines.get k).suppressed = true ∨
    (s.rln.power ≠ some .quiet ∧ s.rln.power ≠ some .sleep)) (none_ : .wakeRequest .line ∉ s.flight) :
    .wakeRequest .line ∉ u.tellLevels.flight := by
  intro m
  obtain old | ⟨k, own⟩ | told := sampled.mem_flight.mp m
  · exact none_ old
  · obtain ⟨e, -, ⟨_, other⟩ | ⟨_, other⟩ | ⟨⟨wakes, low, free⟩, _⟩⟩ := mem_lineReports.mp own
    · cases other
    · cases other
    · rw [lowPower_iff] at low
      obtain off | suppressed | ⟨notQuiet, notSleep⟩ := still k
      · simp [off] at wakes
      · simp [suppressed] at free
      · exact low.elim notQuiet notSleep
  · obtain ⟨b, i | i | i⟩ := levelReports_levels told <;> cases i

/-- What a qualifying edge of a known level sends. -/
theorem LinesSampled.edge {l : Line} {e : LineEdge} (edge : lineEdge s levels l = some e) :
    ((s.settings.line.get l).notice = true →
      .notice .line (linePayload l e (levels.get l) (s.settings.line.get l).fn) ∈ u.tellLevels.flight) ∧
    ((s.settings.line.get l).fn = .occupancy → .occupancyEdge l e ∈ u.tellLevels.flight) ∧
    ((s.settings.line.get l).wake = true → (s.rln.lines.get l).suppressed = false → s.rln.power = some .quiet ∨ s.rln.power = some .sleep →
      .wakeRequest .line ∈ u.tellLevels.flight) := by
  refine ⟨fun on => ?_, fun occupancy => ?_, fun wakes free low => ?_⟩
  all_goals refine sampled.mem_flight.mpr (.inr (.inl ⟨l, mem_lineReports.mpr ⟨e, edge, ?_⟩⟩))
  · exact .inl ⟨on, rfl⟩
  · exact .inr (.inl ⟨occupancy, rfl⟩)
  · exact .inr (.inr ⟨⟨wakes, (lowPower_iff _).mpr low, free⟩, rfl⟩)

/-- A sampling moves the timers and the lines, and sends reports. -/
theorem LinesSampled.rest : u.tellLevels.settings = s.settings ∧ u.tellLevels.tbc = s.tbc ∧ u.tellLevels.scr = s.scr ∧
    u.tellLevels.msc = s.msc ∧ u.tellLevels.bks = s.bks ∧ u.tellLevels.mix = s.mix ∧ u.tellLevels.vdt = s.vdt ∧
    u.tellLevels.pcu.idle = s.pcu.idle.map (· - 1) ∧ u.tellLevels.pcu.sleep = s.pcu.sleep.map (· - 1) := by
  rw [sampled.frame]
  exact ⟨rfl, rfl, rfl, rfl, rfl, rfl, rfl, rfl, rfl⟩

end

/-! ## Commands (R163, R164) -/

theorem exec_setLine_fits (r : CmdRef) (l : Line) {e : LineEdit} {c : LineConfig} {s : State} (edited : editedLine e (s.settings.line.get l) = some c)
    (fits : c.fits = true) : exec (.setLine r (some l) e) s = .next
      ((({ s.taking (.setLine r (some l) e) with
          settings := { s.settings with line := s.settings.line.upd l c }
          rln := s.rln.put l ((s.rln.lines.get l).reconfigured (s.settings.line.get l) c) } : State).tellLevels).reply r .ok) := by
  show execSetLine r (some l) e s = _
  simp only [execSetLine, State.taking_settings, State.taking_rln, edited, fits]
  rfl

theorem exec_setLine_unfit (r : CmdRef) (l : Line) {e : LineEdit} {c : LineConfig} {s : State} (edited : editedLine e (s.settings.line.get l) = some c)
    (unfit : c.fits = false) : exec (.setLine r (some l) e) s = .next (Answered (.setLine r (some l) e) r .badArgument [] s) := by
  show execSetLine r (some l) e s = _
  simp only [execSetLine, State.taking_settings, edited, unfit]
  rfl

theorem mem_namedLines (ls : List Line) (k : Line) : k ∈ namedLines ls ↔ ls = [] ∨ k ∈ ls := by
  unfold namedLines
  by_cases none_ : ls = [] <;> simp [none_, allLines]

/-- What a sampling makes of one line. -/
theorem lineAfter_input {s : State} {levels : Tab PinLevel 8} {l : Line} (input : (s.settings.line.get l).direction = .input) (n : Nat) :
    ((s.rln.lines.get l).settled = some (levels.get l) → lineAfter s levels l = { s.rln.lines.get l with run := none }) ∧
    ((s.rln.lines.get l).settled ≠ some (levels.get l) → (∀ m, (s.rln.lines.get l).run ≠ some (levels.get l, m)) →
      lineAfter s levels l = { s.rln.lines.get l with run := some (levels.get l, 1) }) ∧
    ((s.rln.lines.get l).settled ≠ some (levels.get l) → (s.rln.lines.get l).run = some (levels.get l, n) → n < 2 →
      lineAfter s levels l = { s.rln.lines.get l with run := some (levels.get l, n + 1) }) ∧
    ((s.rln.lines.get l).settled = none → (s.rln.lines.get l).run = some (levels.get l, 2) →
      lineAfter s levels l = { s.rln.lines.get l with settled := some (levels.get l), run := none }) := by
  refine ⟨fun settled => ?_, fun other fresh => ?_, fun other run few => ?_, fun unknown run => ?_⟩
  · exact lineAfter_still input (sampled_settled settled)
  · exact lineAfter_still input (sampled_fresh other fresh)
  · exact lineAfter_still input (sampled_counting other run few)
  · exact lineAfter_still input ((sampled_third (by simp [unknown]) run).trans (by simp [unknown]))

/-- A result sent last ends the reports. -/
theorem endsWith_reply {c : Instr} {s u : State} {out : List Instr} (sent : Sent c s u out) (r : CmdRef) (res : Result) (p : List Byte) :
    SentSome c s (u.reply r res p) (EndsWith (.blockResult r res p)) := by
  refine ⟨out ++ [.blockResult r res p], ?_, by simp [EndsWith]⟩
  unfold Sent at *
  rw [State.reply_flight, sent, List.append_assoc]

/-- Settles O46. -/
theorem linesAreSampledAndSet : Obligations.LinesAreSampledAndSet := by
  intro r l levels n old e c ls s
  refine ⟨⟨_, exec_lineSample s levels, ?sample⟩, fun edited fits => ⟨_, exec_setLine_fits r l edited fits, ?set⟩,
    fun edited unfit => exec_setLine_unfit r l edited unfit, ⟨_, rfl, rfl, rfl, fun k => ?clear⟩⟩
  case clear =>
    simp only [State.reply_rln, Rln.cleared, Tab.get_gen, mem_namedLines]
    rfl
  case set =>
    refine ⟨rfl, fun k => Tab.get_upd .., fun k => ?_, endsWith_reply (out := levelReports _ _) (by exact rfl) _ _ _⟩
    simp only [State.reply_rln, tellLevels_rln, Rln.put, Tab.get_upd, LineState.reconfigured]
    by_cases own : k = l
    · simp [own]
    · simp [own]
  case sample =>
    have sampled := linesSampled_all s levels
    generalize s.lineSampled levels = u at sampled
    obtain ⟨settings, tbc, scr, msc, bks, mix, vdt, idle, sleep⟩ := sampled.rest
    refine ⟨settings, tbc, scr, msc, bks, mix, vdt, idle, sleep, fun output => ?output, fun input => ?input, fun p => sampled.notice,
      sampled.sleeps, fun fn served => ?told⟩
    case output => rw [sampled.line, lineAfter_output output]
    case input =>
      rw [sampled.line]
      obtain ⟨settled, fresh, counting, unknown⟩ := lineAfter_input (levels := levels) input n
      refine ⟨settled, fresh, counting, unknown, fun known other run => ⟨lineAfter_changed input known other run, fun takes => ?_⟩⟩
      exact sampled.edge (by rw [lineEdge_changed input known other run, Option.filter, if_pos takes])
    case told =>
      have now : (if fn = .muteSwitch then u.tellLevels.rln.muteTold else u.tellLevels.rln.supplyTold) =
          u.rln.toldAfter s.settings fn (if fn = .muteSwitch then s.rln.muteTold else s.rln.supplyTold) := by
        obtain rfl | rfl := served
        · exact sampled.told.1
        · exact sampled.told.2
      have level : assertedLevel fn = if fn = .muteSwitch then .high else .low := by obtain rfl | rfl := served <;> rfl
      dsimp only
      rw [now]
      refine ⟨?_, fun b told => ?_, fun b told new => ⟨?_, ?_⟩⟩
      · rw [Rln.toldAfter_none, Rln.allSettled_iff]
        rfl
      · rw [Rln.toldAfter_some told, Rln.combined_iff, level]
        rfl
      · rintro rfl
        exact (sampled.tells b).1 (Rln.levelDue_of_new told new)
      · rintro rfl
        exact (sampled.tells b).2 (Rln.levelDue_of_new told new)

end Sys2Proof.Machine
end

section
/-! PROOF. The client ports (chapter 10): event records, frames, and the authorities. -/

namespace Sys2Proof.Machine

open Sys2Proof

/-! ## Ports of a state -/

@[simp] theorem port_putPort_self (s : State) (p : Port) (v : PortState) : (s.putPort p v).port p = v := Tab.get_upd_self ..

theorem port_putPort_ne (s : State) {p q : Port} (n : q ≠ p) (v : PortState) : (s.putPort p v).port q = s.port q := by
  simp [State.putPort, State.port, Tab.get_upd, n]

@[simp] theorem putPort_flight (s : State) (p : Port) (v : PortState) : (s.putPort p v).flight = s.flight := rfl

@[simp] theorem putPort_holder (s : State) (p : Port) (v : PortState) : (s.putPort p v).cph.holder = s.cph.holder := rfl

/-! ## Event records (R178 to R180, R182, R188) -/

theorem boundedPayload_length (payload : List Byte) : (boundedPayload payload).length ≤ 1024 := by
  unfold boundedPayload payloadLimit
  split
  · assumption
  · exact List.length_take_le _ _

theorem boundedPayload_whole {payload : List Byte} (fits : payload.length ≤ 1024) : boundedPayload payload = payload := if_pos fits

theorem completed_inHand {t : PortState} {tag : Nat} {h : InHand} (found : t.inHand.find? (fun g => g.tag = tag) = some h) (res : Result)
    (payload : List Byte) : t.completed tag res payload =
      { t with inHand := t.inHand.filter fun g => g.tag ≠ tag }.append (completionRecord h res payload) := by
  rw [PortState.completed, found]

theorem exec_blockResult (r : CmdRef) (res : Result) (payload : List Byte) (s : State) : exec (.blockResult r res payload) s =
    .next ((s.taking (.blockResult r res payload)).putPort r.port ((s.port r.port).completed r.tag res payload)) := rfl

theorem putPort_same (s : State) (p : Port) : s.putPort p (s.port p) = s := by
  have same : s.cph.ports.upd p (s.cph.ports.get p) = s.cph.ports := Tab.ext_get _ _ fun q => by
    by_cases own : q = p <;> simp [Tab.get_upd, own]
  show { s with cph := { s.cph with ports := s.cph.ports.upd p (s.cph.ports.get p) } } = s
  rw [same]

/-- Settles O53. -/
theorem recordsReachThePorts : Obligations.RecordsReachThePorts := by
  intro k payload r res s
  refine ⟨⟨_, rfl, rfl, fun p => ?_⟩, fun h found => ⟨_, boundedPayload payload, exec_blockResult r res payload s, boundedPayload_length payload,
    boundedPayload_whole, rfl, fun p n => port_putPort_ne _ n _, ?_⟩, fun absent => ?_⟩
  · have port : (Tab.gen fun p => (s.port p).offered k payload).get p = (s.port p).offered k payload := Tab.get_gen _ p
    show (∀ _, (Tab.gen fun p => (s.port p).offered k payload).get p = _) ∧ (∀ _ _, (Tab.gen fun p => (s.port p).offered k payload).get p = _) ∧
      ∀ _ _, (Tab.gen fun p => (s.port p).offered k payload).get p = _
    rw [port]
    refine ⟨fun out => if_neg out, fun subscribed full => ?_, fun subscribed room => ?_⟩
    · rw [PortState.offered, if_pos subscribed, if_neg (by omega)]
    · rw [PortState.offered, if_pos subscribed, if_pos room]
      rfl
  · rw [port_putPort_self, completed_inHand found]
    rfl
  · have stays : (s.port r.port).completed r.tag res payload = s.port r.port := by
      rw [PortState.completed, List.find?_eq_none.mpr (by simpa using absent)]
    rw [exec_blockResult, stays]
    exact next_congr (putPort_same (s.taking _) r.port)

/-! ## The authority table (R183 to R186) -/

theorem AuthorityTable.get_set (t : AuthorityTable) (a b : Authority) (o : Option Port) : (t.set a o).get b = if b = a then o else t.get b := by
  cases a <;> cases b <;> rfl

/-- A pass over some authorities sets those it names. -/
theorem AuthorityTable.get_foldl_set (names : List Authority) (which : Authority → Bool) (o : Option Port) (t : AuthorityTable) (b : Authority) :
    (names.foldl (fun u a => if which a then u.set a o else u) t).get b = if b ∈ names ∧ which b = true then o else t.get b := by
  induction names generalizing t with
  | nil => simp
  | cons a names ih =>
    rw [List.foldl_cons, ih]
    by_cases own : b = a
    · subst own
      cases which b <;> simp [AuthorityTable.get_set]
    · cases named : which a <;> simp [own, AuthorityTable.get_set]

theorem mem_authorityNames (a : Authority) : a ∈ authorityNames := by cases a <;> decide

theorem AuthorityTable.get_freed (t : AuthorityTable) (which : Authority → Bool) (b : Authority) :
    (t.freed which).get b = if which b then none else t.get b := by
  rw [AuthorityTable.freed, AuthorityTable.get_foldl_set]
  simp [mem_authorityNames]

theorem AuthorityTable.get_claimed (t : AuthorityTable) (p : Port) (wanted : List Authority) (b : Authority) :
    (t.claimed p wanted).get b = if b ∈ wanted ∧ t.get b = none then some p else t.get b := by
  rw [AuthorityTable.claimed, AuthorityTable.get_foldl_set _ (fun a => wanted.contains a && (t.get a).isNone)]
  simp [mem_authorityNames]

/-- The notice of a change of the table is all that telling it adds (R186). -/
theorem tellAuthority_eq (s : State) (cause : AuthorityCause) (p : Port) (before : AuthorityTable) :
    s.tellAuthority cause p before =
      { s with flight := s.flight ++ if s.cph.holder = before then [] else [.notice .authority (authorityPayload cause p s.cph.holder)] } := by
  unfold State.tellAuthority
  split
  · simp
  · rfl

/-- Freeing authorities moves the table alone and tells of it. -/
theorem freeAuthorities_eq (s : State) (cause : AuthorityCause) (p : Port) (which : Authority → Bool) : s.freeAuthorities cause p which =
    { s with
      cph := { s.cph with holder := s.cph.holder.freed fun a => which a && s.cph.holder.get a = some p }
      flight := s.flight ++ if (s.cph.holder.freed fun a => which a && s.cph.holder.get a = some p) = s.cph.holder then [] else
        [.notice .authority (authorityPayload cause p (s.cph.holder.freed fun a => which a && s.cph.holder.get a = some p))] } :=
  tellAuthority_eq ..

theorem freeAuthorities_holder (s : State) (cause : AuthorityCause) (p : Port) (which : Authority → Bool) (b : Authority) :
    (s.freeAuthorities cause p which).cph.holder.get b = if which b = true ∧ s.cph.holder.get b = some p then none else s.cph.holder.get b := by
  rw [freeAuthorities_eq, AuthorityTable.get_freed]
  simp

theorem freeAuthorities_port (s : State) (cause : AuthorityCause) (p q : Port) (which : Authority → Bool) :
    (s.freeAuthorities cause p which).port q = s.port q := by
  rw [freeAuthorities_eq]
  rfl

/-- Telling is by the notice of R186. -/
theorem freeAuthorities_flight (s : State) (cause : AuthorityCause) (p : Port) (which : Authority → Bool) :
    (s.freeAuthorities cause p which).flight = s.flight ++ authorityNotice cause p s (s.freeAuthorities cause p which) := by
  rw [freeAuthorities_eq]
  rfl

/-- What freeing authorities does to the state. -/
theorem freeAuthorities_spec (s : State) (cause : AuthorityCause) (p : Port) (which : Authority → Bool) :
    s.freeAuthorities cause p which = { s with
        cph := { s.cph with holder := (s.freeAuthorities cause p which).cph.holder }
        flight := (s.freeAuthorities cause p which).flight } ∧
      (∀ q, (s.freeAuthorities cause p which).port q = s.port q) ∧
      (∀ b, (s.freeAuthorities cause p which).cph.holder.get b =
        if which b = true ∧ s.cph.holder.get b = some p then none else s.cph.holder.get b) ∧
      (s.freeAuthorities cause p which).flight = s.flight ++ authorityNotice cause p s (s.freeAuthorities cause p which) :=
  ⟨by rw [freeAuthorities_eq], fun q => freeAuthorities_port s cause p q which, freeAuthorities_holder s cause p which,
    freeAuthorities_flight s cause p which⟩

theorem heldBy_eq (s : State) (p : Port) : s.cph.holder.heldBy p = authoritiesOf s p := rfl

/-! ## CLAIM (R183) -/

theorem claiming_held (window : Nat) (t : PortState) :
    t.claiming window true = { t with window := window, timer := some (window * 1024), token := none } := rfl

theorem claiming_empty (window : Nat) (t : PortState) : t.claiming window false = { t with window := window, timer := none } := rfl

/-- The wanted authorities that other ports hold, as R183 names them. -/
theorem others_eq (t : AuthorityTable) (p : Port) (wanted : List Authority) :
    (authorityNames.filter fun a => wanted.contains a && (t.get a).any fun q => q ≠ p) =
      authorityNames.filter fun b => b ∈ wanted ∧ t.get b ≠ none ∧ t.get b ≠ some p := by
  congr 1
  funext a
  cases t.get a <;> simp

/-- The state that a claim leaves. -/
def State.claimedBy (s : State) (r : CmdRef) (wanted : List Authority) (n : Int) : State :=
  let after := s.cph.holder.claimed r.port wanted
  { s with
    cph := { s.cph with
      holder := after
      ports := s.cph.ports.upd r.port ((s.port r.port).claiming (clampInt 1 60 n).toNat (after.heldBy r.port ≠ [])) }
    flight := s.flight ++ ((if after = s.cph.holder then [] else [.notice .authority (authorityPayload .claim r.port after)]) ++
      [.blockResult r (if 1 ≤ n ∧ n ≤ 60 then .ok else .clamped) (authoritiesField (after.heldBy r.port) ++
        authoritiesField (authorityNames.filter fun b => b ∈ wanted ∧ after.get b ≠ none ∧ after.get b ≠ some r.port) ++
        if 1 ≤ n ∧ n ≤ 60 then [] else u16 (clampInt 1 60 n).toNat)]) }

theorem claimFor_eq (s : State) (r : CmdRef) (wanted : List Authority) (n : Int) : s.claimFor r wanted n = s.claimedBy r wanted n := by
  unfold State.claimFor State.claimedBy
  dsimp only
  rw [tellAuthority_eq, others_eq]
  simp only [Bool.and_eq_true, decide_eq_true_eq, ← List.append_assoc]
  rfl

theorem exec_claim (r : CmdRef) {wanted : List Authority} (some_ : wanted ≠ []) (n : Int) (s : State) :
    exec (.claim r (some wanted) (some n)) s = .next ((s.taking (.claim r (some wanted) (some n))).claimedBy r wanted n) := by
  rw [← claimFor_eq]
  cases wanted with
  | nil => exact absurd rfl some_
  | cons => rfl

theorem claimedBy_holder (s : State) (r : CmdRef) (wanted : List Authority) (n : Int) (b : Authority) :
    (s.claimedBy r wanted n).cph.holder.get b = if b ∈ wanted ∧ s.cph.holder.get b = none then some r.port else s.cph.holder.get b :=
  AuthorityTable.get_claimed ..

theorem claimedBy_flight (s : State) (r : CmdRef) (wanted : List Authority) (n : Int) : (s.claimedBy r wanted n).flight =
    s.flight ++ (authorityNotice .claim r.port s (s.claimedBy r wanted n) ++
      [.blockResult r (if 1 ≤ n ∧ n ≤ 60 then .ok else .clamped) (authoritiesField (authoritiesOf (s.claimedBy r wanted n) r.port) ++
        authoritiesField (authorityNames.filter fun b => b ∈ wanted ∧ (s.claimedBy r wanted n).cph.holder.get b ≠ none ∧
          (s.claimedBy r wanted n).cph.holder.get b ≠ some r.port) ++
        if 1 ≤ n ∧ n ≤ 60 then [] else u16 (clampInt 1 60 n).toNat)]) := rfl

theorem claimedBy_port (s : State) (r : CmdRef) (wanted : List Authority) (n : Int) : (s.claimedBy r wanted n).port r.port =
    (s.port r.port).claiming (clampInt 1 60 n).toNat (authoritiesOf (s.claimedBy r wanted n) r.port ≠ []) := Tab.get_upd_self ..

theorem claimedBy_port_ne (s : State) (r : CmdRef) (wanted : List Authority) (n : Int) {q : Port} (other : q ≠ r.port) :
    (s.claimedBy r wanted n).port q = s.port q := (Tab.get_upd ..).trans (if_neg other)

/-! ## RELEASE, PRESENCE and the expiry (R184, R185) -/

/-- A port that holds nothing any more. -/
theorem unclaimed_eq (t : PortState) : t.unclaimed = { t with timer := none, token := none } := rfl

theorem exec_release (r : CmdRef) (wanted : List Authority) (s : State) : exec (.release r (some wanted)) s =
    .next (let u := (s.taking (.release r (some wanted))).freeAuthorities .release r.port fun a => wanted = [] || wanted.contains a
      (if authoritiesOf u r.port = [] then u.putPort r.port (u.port r.port).unclaimed else u).reply r .ok
        (authoritiesField (authoritiesOf u r.port))) := rfl

theorem exec_presence (r : CmdRef) (k : Token) (s : State) : exec (.presence r (some k)) s =
    .next (if authoritiesOf s r.port = [] then Answered (.presence r (some k)) r .state [] s
      else if (s.port r.port).token = some k then Answered (.presence r (some k)) r .repeated [] s
      else ((s.taking (.presence r (some k))).putPort r.port
        { s.port r.port with token := some k, timer := some ((s.port r.port).window * 1024) }).reply r .ok) := rfl

theorem exec_presenceTimerExpiry {p : Port} {s : State} (runs : (s.port p).timer ≠ none) : exec (.presenceTimerExpiry p) s =
    .next ((s.putPort p (s.port p).unclaimed).freeAuthorities .expiry p fun _ => true) :=
  congrArg _ (if_pos (Option.isSome_iff_ne_none.mpr runs))

theorem exec_presenceTimerExpiry_stopped {p : Port} {s : State} (stopped : (s.port p).timer = none) :
    exec (.presenceTimerExpiry p) s = .next s :=
  congrArg _ (if_neg (by simp [stopped]))

theorem mem_subscription (kinds : List NoticeKind) (j : NoticeKind) : j ∈ subscription kinds ↔ j = .authority ∨ j ∈ kinds := by
  have all : j ∈ noticeKindNames := by cases j <;> decide
  simp [subscription, all]

/-- A port that holds an authority holds some. -/
theorem authoritiesOf_ne_nil {s : State} {a : Authority} {p : Port} (holds : s.cph.holder.get a = some p) : authoritiesOf s p ≠ [] :=
  List.ne_nil_of_mem (List.mem_filter.mpr ⟨mem_authorityNames a, by simpa using holds⟩)

theorem exec_subscribe (r : CmdRef) (kinds : List NoticeKind) (s : State) : exec (.subscribe r (some kinds)) s =
    .next (((s.taking (.subscribe r (some kinds))).putPort r.port { s.port r.port with subs := subscription kinds }).reply r .ok
      (kindsField (subscription kinds))) := rfl

theorem authorityNotice_changed {cause : AuthorityCause} {p : Port} {s t : State} (changed : t.cph.holder ≠ s.cph.holder) :
    authorityNotice cause p s t = [.notice .authority (authorityPayload cause p t.cph.holder)] := if_neg changed

/-- Settles O55. -/
theorem authorityIsHeldByPorts : Obligations.AuthorityIsHeldByPorts := by
  intro r a wanted w n k kinds s
  refine ⟨fun some_ => ⟨_, exec_claim r some_ n s, rfl, rfl, fun q => claimedBy_port_ne _ r wanted n, claimedBy_holder _ r wanted n, fun holds => ?_,
      fun empty => ?_, rfl⟩, fun wants free => ?_, by cases w <;> rfl, by cases w <;> rfl, ?release, rfl, fun holds other => ?_,
    fun holds same => ?_, fun empty => ?_, rfl, fun runs => ?_, exec_presenceTimerExpiry_stopped, ?subscribe, rfl⟩
  · rw [claimedBy_port, decide_eq_true holds]
    rfl
  · rw [claimedBy_port, decide_eq_false (not_not.mpr empty)]
    rfl
  · have some_ : wanted ≠ [] := List.ne_nil_of_mem wants
    have now := (claimedBy_holder (s.taking (.claim r (some wanted) (some n))) r wanted n a).trans (if_pos ⟨wants, free⟩)
    have changed : ((s.taking (.claim r (some wanted) (some n))).claimedBy r wanted n).cph.holder ≠ s.cph.holder := by
      intro same
      rw [same, free] at now
      cases now
    refine ⟨_, exec_claim r some_ n s, now, ?_⟩
    rw [show ((s.taking (.claim r (some wanted) (some n))).claimedBy r wanted n).flight = _ from
      claimedBy_flight (s.taking (.claim r (some wanted) (some n))) r wanted n, authorityNotice_changed (s := s.taking _) changed]
    simp
  case release =>
    refine ⟨_, exec_release r wanted s, ?_⟩
    dsimp only
    obtain ⟨frame, port, holder, flight⟩ := freeAuthorities_spec (s.taking (.release r (some wanted))) .release r.port
      fun a => wanted = [] || wanted.contains a
    generalize (s.taking (.release r (some wanted))).freeAuthorities .release r.port (fun a => wanted = [] || wanted.contains a) = u
      at frame port holder flight
    have frees (b : Authority) : u.cph.holder.get b = if s.cph.holder.get b = some r.port ∧ (wanted = [] ∨ b ∈ wanted) then none
        else s.cph.holder.get b := by
      refine (holder b).trans (if_congr ?_ rfl rfl)
      simp [and_comm]
    have sent (v : State) (same : v.cph.holder = u.cph.holder) (inFlight : v.flight = u.flight) (payload : List Byte) :
        Sent (.release r (some wanted)) s (v.reply r .ok payload) (authorityNotice .release r.port s (v.reply r .ok payload) ++
          [.blockResult r .ok payload]) := by
      unfold Sent authorityNotice
      rw [State.reply_flight, inFlight, flight, State.reply_cph, same, List.append_assoc]
      rfl
    by_cases left : authoritiesOf u r.port = []
    · rw [if_pos left]
      refine ⟨by rw [frame]; rfl, by rw [frame]; rfl, fun q n => (port_putPort_ne u n _).trans (port q), frees,
        fun _ => (port_putPort_self ..).trans (by rw [port]; rfl), fun some_ => absurd left some_, sent _ rfl rfl _⟩
    · rw [if_neg left]
      exact ⟨by rw [frame]; rfl, by rw [frame]; rfl, fun q _ => port q, frees, fun none_ => absurd none_ left, fun _ => port r.port,
        sent _ rfl rfl _⟩
  · rw [exec_presence, if_neg (authoritiesOf_ne_nil holds), if_neg other]
    exact ⟨_, rfl, rfl, rfl, fun q n => port_putPort_ne _ n _, port_putPort_self _ _ _⟩
  · rw [exec_presence, if_neg (authoritiesOf_ne_nil holds), if_pos same]
  · rw [exec_presence, if_pos empty]
  · refine ⟨_, exec_presenceTimerExpiry runs, ?_⟩
    obtain ⟨frame, port, holder, flight⟩ := freeAuthorities_spec (s.putPort r.port (s.port r.port).unclaimed) .expiry r.port fun _ => true
    generalize (s.putPort r.port (s.port r.port).unclaimed).freeAuthorities .expiry r.port (fun _ => true) = u at frame port holder flight
    refine ⟨by rw [frame]; rfl, by rw [frame]; rfl, ?_, fun q n => (port q).trans (port_putPort_ne _ n _), fun b => ?_, flight⟩
    · rw [port, port_putPort_self, unclaimed_eq]
    · rw [holder]
      simp
  case subscribe =>
    refine ⟨_, exec_subscribe r kinds s, rfl, fun q n => port_putPort_ne _ n _, ?_, fun j => ?_, ?_⟩
    · rw [show (((s.taking (.subscribe r (some kinds))).putPort r.port _).reply r .ok (kindsField (subscription kinds))).port r.port = _ from
        port_putPort_self _ _ _]
    · rw [show (((s.taking (.subscribe r (some kinds))).putPort r.port _).reply r .ok (kindsField (subscription kinds))).port r.port = _ from
        port_putPort_self _ _ _]
      exact mem_subscription kinds j
    · rw [show (((s.taking (.subscribe r (some kinds))).putPort r.port _).reply r .ok (kindsField (subscription kinds))).port r.port = _ from
        port_putPort_self _ _ _]
      rfl

/-! ## Frames (R177 to R182, R188) -/

@[simp] theorem port_answer_self (s : State) (p : Port) (bytes : List Byte) : (s.answer p bytes).port p = { s.port p with answer := bytes } :=
  port_putPort_self ..

theorem port_answer_ne (s : State) {p q : Port} (n : q ≠ p) (bytes : List Byte) : (s.answer p bytes).port q = s.port q := port_putPort_ne s n _

theorem exec_post_early {f : Frame} (early : f.close = .beforeAnswer) (p : Port) (s : State) : exec (.post p f) s = .next (s.answer p []) :=
  congrArg _ (if_pos early)

theorem exec_fetch_early {f : Frame} (early : f.close = .beforeAnswer) (p : Port) (s : State) : exec (.fetch p f) s = .next (s.answer p []) :=
  congrArg _ (if_pos early)

section
variable {s : State} {p : Port} {f : Frame} (runs : s.pcu.power ≠ none) (whole : f.close = .whole)
include runs whole

/-- The answer of a whole POST at ports that run (R178). -/
theorem exec_post_whole : exec (.post p f) s = .next (match (checkedBody f.request).bind postRecord with
    | some c => if (s.port p).isFull then s.answer p [1] else (s.answer p [0]).take p c
    | none => s.answer p [2]) := by
  show execPost p f s = _
  rw [execPost, if_neg (by simp [whole]), State.answerPost, if_neg (by simp [State.portsRun, runs]), whole]
  cases (checkedBody f.request).bind postRecord <;> rfl

theorem exec_fetch_whole (short : isShortFrame 2 f.request = true) {e : EventRecord} {rest : List EventRecord}
    (events : (s.port p).events = e :: rest) :
    exec (.fetch p f) s = .next ((s.putPort p { s.port p with events := rest }).answer p (recordAnswer e)) := by
  show execFetch p f s = _
  rw [execFetch, if_neg (by simp [whole]), State.answerFetch, if_neg (by simp [State.portsRun, runs]),
    if_pos ⟨whole, short⟩, events]

end

/-- A command completed as it is taken: its record at the tail, with the gap mark (R178, R180). -/
theorem take_completed {s : State} {p : Port} {c : CommandRecord} {res : Result}
    (refused : (commandOf c.code = none ∧ res = .unknown) ∨
      (∃ k a, commandOf c.code = some k ∧ k.authority = some a ∧ s.cph.holder.get a ≠ some p ∧ res = .noAuthority)) :
    s.take p c = ({ s with cph := { s.cph with nextTag := s.cph.nextTag + 1 } } : State).putPort p { s.port p with
      events := (s.port p).events ++ [⟨false, (s.port p).gap, c.code, BitVec.ofNat 32 c.cookie, res.ctorIdx, []⟩]
      gap := false } := by
  obtain ⟨unknown, rfl⟩ | ⟨k, a, known, needs, lacks, rfl⟩ := refused
  · simp only [State.take, unknown]
    rfl
  · simp only [State.take, known, needs, Option.all_some, decide_eq_false lacks]
    rfl

/-- A command of a known code whose authority the port holds is handed over (R178). -/
theorem take_handed {s : State} {p : Port} {c : CommandRecord} {k : Command} {row : Instr} (known : commandOf c.code = some k)
    (holds : ∀ a ∈ k.authority, s.cph.holder.get a = some p) (parsed : k.row ⟨p, s.cph.nextTag⟩ c.params = some row) :
    s.take p c = ({ s with cph := { s.cph with nextTag := s.cph.nextTag + 1 } } : State).handOver p
      ⟨s.cph.nextTag, c.code, BitVec.ofNat 32 c.cookie, some row, false⟩ k := by
  have all : (k.authority.all fun a => s.cph.holder.get a = some p) = true := by
    cases needs : k.authority with
    | none => rfl
    | some a => simpa using holds a needs
  simp only [State.take, known, parsed, all]
  rfl

theorem port_nextTag (s : State) (p : Port) (n : Nat) : ({ s with cph := { s.cph with nextTag := n } } : State).port p = s.port p := rfl

theorem wakeForCommand_eq (s : State) : s.wakeForCommand =
    { s with flight := s.flight ++ if s.pcu.power = some .quiet ∨ s.pcu.power = some .sleep then [.wakeRequest .command] else [] } := by
  unfold State.wakeForCommand
  split
  · rfl
  · simp

theorem handOver_waits {s : State} {k : Command} (notFull : s.pcu.power ≠ some .full) (needs : k.needsFull = true) (p : Port) (h : InHand) :
    s.handOver p h k =
      (s.putPort p { s.port p with inHand := (s.port p).inHand ++ [{ h with waitsFull := true }] }).wakeForCommand :=
  if_pos (by simp [State.mustWait, notFull, needs])

theorem handOver_now {s : State} {k : Command} (ready : s.pcu.power = some .full ∨ k.needsFull = false) (p : Port) (h : InHand) :
    s.handOver p h k = ((s.putPort p { s.port p with inHand := (s.port p).inHand ++ [h] }).emit [handedRow p h]).restartFor k :=
  if_neg (by obtain ready | ready := ready <;> simp [State.mustWait, ready])

theorem restartFor_untouched (s : State) (k : Command) : (s.restartFor k).flight = s.flight ∧ (s.restartFor k).cph = s.cph := by
  unfold State.restartFor
  split <;> exact ⟨rfl, rfl⟩

theorem exec_portReset {p : Port} {f : Frame} {s : State} (whole : f.close = .whole) (short : isShortFrame 3 f.request = true) :
    exec (.portReset p f) s = .next (s.resetPort p) := congrArg _ (if_pos ⟨whole, short⟩)

theorem exec_portReset_damaged {p : Port} {f : Frame} {s : State} (damaged : f.close ≠ .whole ∨ isShortFrame 3 f.request = false) :
    exec (.portReset p f) s = .next s :=
  congrArg _ (if_neg (by rintro ⟨whole, short⟩; obtain d | d := damaged <;> simp_all))

/-- Settles O54. -/
theorem framesAreAnswered : Obligations.FramesAreAnswered := by
  intro p f c s
  refine ⟨fun early => ⟨_, exec_post_early early p s, rfl, port_answer_self .., exec_fetch_early early p s⟩,
    fun runs whole record full => ?full, fun runs whole damaged => ?malformed, fun res runs whole record free refused => ?completed,
    fun k row runs notFull whole record free known needs holds parsed => ?waits,
    fun k row runs ready whole record free known holds parsed => ?handed,
    fun runs whole short e rest events => ?fetch, fun whole short => ?reset, exec_portReset_damaged⟩
  case full =>
    rw [exec_post_whole runs whole, record]
    dsimp only
    rw [if_pos full]
    exact ⟨_, rfl, rfl, fun q n => port_answer_ne s n _, port_answer_self ..⟩
  case malformed =>
    rw [exec_post_whole runs whole, damaged]
    exact ⟨_, rfl, rfl, fun q n => port_answer_ne s n _, port_answer_self ..⟩
  case completed =>
    rw [exec_post_whole runs whole, record]
    dsimp only
    rw [if_neg (by simp [free]), take_completed (s := s.answer p [0]) refused]
    refine ⟨_, rfl, rfl, fun q n => ?_, ?_⟩
    · rw [port_putPort_ne _ n]
      exact port_answer_ne s n _
    · rw [port_putPort_self, port_answer_self]
  case waits =>
    rw [exec_post_whole runs whole, record]
    dsimp only
    rw [if_neg (by simp [free]), take_handed (s := s.answer p [0]) known holds parsed, handOver_waits (by exact notFull) needs, wakeForCommand_eq]
    refine ⟨_, rfl, rfl, fun q n => ?_, rfl, rfl, ?_, rfl⟩
    · exact (port_putPort_ne _ n _).trans (port_answer_ne s n _)
    · refine (port_putPort_self _ _ _).trans ?_
      rw [port_nextTag, port_answer_self]
      rfl
  case handed =>
    rw [exec_post_whole runs whole, record]
    dsimp only
    rw [if_neg (by simp [free]), take_handed (s := s.answer p [0]) known holds parsed, handOver_now (by exact ready)]
    refine ⟨_, rfl, fun q n => ?_, ?_, ?_, ?_⟩
    · rw [State.port, (restartFor_untouched _ k).2]
      exact (port_putPort_ne _ n _).trans (port_answer_ne s n _)
    · rw [(restartFor_untouched _ k).2]
      rfl
    · rw [State.port, (restartFor_untouched _ k).2]
      refine (port_putPort_self _ _ _).trans ?_
      rw [port_nextTag, port_answer_self]
      rfl
    · rw [Raised, (restartFor_untouched _ k).1]
      rfl
  case fetch =>
    rw [exec_fetch_whole runs whole short events]
    refine ⟨_, rfl, ?_, fun q n => ?_, ?_⟩
    · rfl
    · rw [port_answer_ne _ n, port_putPort_ne _ n]
    · rw [port_answer_self, port_putPort_self]
  case reset =>
    refine ⟨_, exec_portReset whole short, ?_⟩
    unfold State.resetPort
    obtain ⟨frame, port, holder, flight⟩ := freeAuthorities_spec
      (({ s with flight := s.flight.filter fun c => !(s.handedRows p).contains c } : State).putPort p { window := (s.port p).window })
      .portReset p fun _ => true
    generalize (({ s with flight := s.flight.filter fun c => !(s.handedRows p).contains c } : State).putPort p
      { window := (s.port p).window }).freeAuthorities .portReset p (fun _ => true) = u at frame port holder flight
    have own : u.port p = { window := (s.port p).window } := (port p).trans (port_putPort_self ..)
    rw [own]
    refine ⟨by rw [frame]; rfl, fun q n => (port q).trans (port_putPort_ne _ n _), rfl, rfl, rfl, rfl, rfl, rfl, rfl, ?_, fun a => ?_⟩
    · have kept : (fun c => !(s.handedRows p).contains c) = fun c => decide (c ∉ (s.port p).inHand.map (handedRow p)) := by
        funext c
        rw [Bool.eq_iff_iff]
        simp [State.handedRows]
      rw [flight, putPort_flight, kept]
      rfl
    · simpa using holder a

end Sys2Proof.Machine
end

section
/-! PROOF. Power, clocks and waking (chapter 9): the moves of the power state, the crystals, the facts of an unused room, and the commands. -/

namespace Sys2Proof.Machine

open Sys2Proof

/-! ## Entries to the power states (R168, R169, R171, R172) -/

theorem mem_powerHolders (b : BlockId) : b ∈ powerHolders := by cases b <;> decide

/-- A change of the power state goes to every block that holds it. -/
theorem setPower_tells (s : State) (p : Power) (phase : Option Phase) (cause : PowerCause) (b : BlockId) :
    .powerStateReport b p phase ∈ (s.setPower p phase cause).flight := by
  simp [mem_powerHolders]

theorem setPower_told (s : State) (p : Power) (phase : Option Phase) (cause : PowerCause) :
    PowerTold (s.setPower p phase cause) s.pcu.power p cause := by
  simp [PowerTold]

theorem sleepStarted_eq (minutes : Nat) : sleepStarted minutes = if minutes = 0 then none else some (minutes * 60 * 1024) := rfl

theorem enterQuiet_tells (s : State) (cause : PowerCause) (b : BlockId) : .powerStateReport b .quiet none ∈ (s.enterQuiet cause).flight :=
  setPower_tells _ _ _ cause b

theorem enterQuiet_told (s : State) (cause : PowerCause) : PowerTold (s.enterQuiet cause) s.pcu.power .quiet cause := setPower_told _ _ _ cause

theorem enterSleep_tells (s : State) (cause : PowerCause) (b : BlockId) : .powerStateReport b .sleep none ∈ (s.enterSleep cause).flight :=
  setPower_tells _ _ _ cause b

theorem enterSleep_told (s : State) (cause : PowerCause) : PowerTold (s.enterSleep cause) s.pcu.power .sleep cause := setPower_told _ _ _ cause

theorem wakeUp_quiet {s : State} (quiet : s.pcu.power = some .quiet) (cause : PowerCause) :
    s.wakeUp cause = ({ s with pcu := { s.pcu with sleep := none } } : State).setPower .waking (some .pollPass) cause := by
  rw [State.wakeUp, quiet]

theorem wakeUp_sleep {s : State} (sleep : s.pcu.power = some .sleep) (cause : PowerCause) :
    s.wakeUp cause = ({ s with pcu := { s.pcu with sleep := none, audio := .settling } } : State).setPower .waking (some .powerSettle) cause := by
  rw [State.wakeUp, sleep]

/-- An entry to FULL keeps what was sent on the way. -/
theorem enterFull_flight (s : State) : s.enterFull.flight = (s.setPower .full none .settled).flight ++
    (List.finRange 3).flatMap fun p => waitingRows p (s.port p) := rfl

theorem enterFull_tells (s : State) (b : BlockId) : .powerStateReport b .full none ∈ s.enterFull.flight :=
  List.mem_append_left _ (setPower_tells s .full none .settled b)

theorem enterFull_told (s : State) : PowerTold s.enterFull s.pcu.power .full .settled :=
  List.mem_append_left _ (setPower_told s .full none .settled)

/-- The waiting commands of a port are handed over in their order, and none waits any more (R172). -/
theorem enterFull_hands (s : State) (p : Port) :
    (((s.port p).inHand.filter (·.waitsFull)).map (handedRow p)).Sublist s.enterFull.flight ∧
      s.enterFull.port p = { s.port p with inHand := (s.port p).inHand.map fun h => { h with waitsFull := false } } := by
  refine ⟨?_, Tab.get_gen _ p⟩
  have rows : (waitingRows p (s.port p)).Sublist ((List.finRange 3).flatMap fun p => waitingRows p (s.port p)) :=
    List.sublist_flatten_of_mem (List.mem_map.mpr ⟨p, List.mem_finRange p, rfl⟩)
  exact rows.trans (List.sublist_append_right _ _)

/-! ## Moves of the power state (O47) -/

theorem exec_idleTimerExpiry (s : State) : exec .idleTimerExpiry s = .next (if s.pcu.idle.isSome then s.enterQuiet .idle else s) := rfl

theorem exec_sleepTimerExpiry (s : State) : exec .sleepTimerExpiry s = .next (if s.pcu.sleep.isSome then s.enterSleep .sleepDelay else s) := rfl

theorem exec_wakeRequest (cause : PowerCause) (s : State) : exec (.wakeRequest cause) s = .next ((s.taking (.wakeRequest cause)).wakeUp cause) := rfl

theorem exec_powerSettleEnd {s : State} (phase : s.pcu.phase = some .powerSettle) (audio : s.pcu.audio = .running) :
    exec .powerSettleEnd s = .next (s.setPhase .enumeration) := congrArg _ (if_pos ⟨phase, audio⟩)

theorem exec_enumerationEnd {s : State} (phase : s.pcu.phase = some .enumeration) : exec .enumerationEnd s = .next s.enterFull :=
  congrArg _ (if_pos phase)

/-- Settles O47: each move is one entry. -/
theorem powerStateMoves : Obligations.PowerStateMoves := by
  intro cause s
  refine ⟨fun runs => ?idle, fun stopped => ?idleStopped, fun runs => ?sleep, fun stopped => ?sleepStopped, fun quiet => ?wakeQuiet,
    fun sleep => ?wakeSleep, fun awake => ?awake, fun phase audio => ?settled, fun phase => ?enumerated, fun b polls completes => ?polled⟩
  case idle =>
    rw [exec_idleTimerExpiry, if_pos (Option.isSome_iff_ne_none.mpr runs)]
    exact ⟨_, rfl, rfl, rfl, rfl, rfl, rfl, enterQuiet_tells s .idle, enterQuiet_told s .idle, sleepStarted_eq _⟩
  case idleStopped => rw [exec_idleTimerExpiry, if_neg (by simp [stopped])]
  case sleep =>
    rw [exec_sleepTimerExpiry, if_pos (Option.isSome_iff_ne_none.mpr runs)]
    exact ⟨_, rfl, rfl, rfl, rfl, rfl, rfl, enterSleep_tells s .sleepDelay, enterSleep_told s .sleepDelay⟩
  case sleepStopped => rw [exec_sleepTimerExpiry, if_neg (by simp [stopped])]
  case wakeQuiet =>
    rw [exec_wakeRequest, wakeUp_quiet (s := s.taking _) quiet]
    refine ⟨_, rfl, rfl, rfl, rfl, rfl, rfl, setPower_tells _ _ _ cause, ?_⟩
    rw [← quiet]
    exact setPower_told _ _ _ cause
  case wakeSleep =>
    rw [exec_wakeRequest, wakeUp_sleep (s := s.taking _) sleep]
    refine ⟨_, rfl, rfl, rfl, rfl, rfl, rfl, setPower_tells _ _ _ cause, ?_⟩
    rw [← sleep]
    exact setPower_told _ _ _ cause
  case awake =>
    rw [exec_wakeRequest, wakeUp_awake (s := s.taking _) cause (by obtain h | h := awake <;> simp [h]) (by obtain h | h := awake <;> simp [h])]
    rfl
  case settled =>
    rw [exec_powerSettleEnd phase audio]
    exact ⟨_, rfl, rfl, rfl, fun b => List.mem_append_right _ (List.mem_map.mpr ⟨b, mem_powerHolders b, rfl⟩)⟩
  case enumerated =>
    rw [exec_enumerationEnd phase]
    exact ⟨_, rfl, rfl, rfl, rfl, rfl, enterFull_tells s, enterFull_told s, enterFull_hands s⟩
  case polled =>
    rw [exec_poll, if_pos polls, if_pos ((pollPassOver_iff s b).mpr completes)]
    exact ⟨_, rfl, rfl, rfl, rfl, rfl, enterFull_tells _, enterFull_told (s.pollOnce b), enterFull_hands (s.pollOnce b)⟩

/-! ## Commands that need FULL (R172) -/

/-- A command whose effect runs in FULL alone waits in any other state. -/
theorem waits_unless_full {c : Instr} {r : CmdRef} {s : State} (notFull : s.pcu.power ≠ some .full)
    (needs : ∃ effect, exec c s = .next ((s.taking c).whenFull r effect)) : ∃ t, exec c s = .next t ∧
      t = { s with cph := { s.cph with ports := t.cph.ports }, flight := t.flight } ∧
      (∀ q, q ≠ r.port → t.cph.ports.get q = s.cph.ports.get q) ∧
      t.cph.ports.get r.port = { s.cph.ports.get r.port with
        inHand := (s.cph.ports.get r.port).inHand.map fun h => if h.tag = r.tag then { h with waitsFull := true } else h } ∧
      Sent c s t (if s.pcu.power = some .quiet ∨ s.pcu.power = some .sleep then [.wakeRequest .command] else []) := by
  obtain ⟨effect, run⟩ := needs
  rw [run, whenFull_waits (s := s.taking c) r effect notFull, waitForFull_eq]
  exact ⟨_, rfl, rfl, fun q n => (Tab.get_upd ..).trans (if_neg n), Tab.get_upd_self .., rfl⟩

/-- Settles O51: each of the commands runs its effect in FULL alone. -/
theorem commandsWaitForFull : Obligations.CommandsWaitForFull := by
  intro r x p n b s notFull c listed
  refine waits_unless_full notFull ?_
  simp only [List.mem_cons, List.not_mem_nil, or_false] at listed
  rcases listed with rfl | rfl | rfl | rfl | rfl | rfl | rfl | rfl | rfl | rfl | rfl | rfl | rfl | rfl | rfl | rfl | rfl | rfl | rfl | rfl |
    rfl | rfl | rfl | rfl | rfl | rfl | rfl | rfl | rfl | rfl | rfl | rfl | rfl <;> exact ⟨_, rfl⟩

/-! ## The facts of an unused room (R166, R167) -/

/-- The idle timer after a fact was taken: it stands while the room stays unused, starts when it becomes so and stops when it ceases to be. -/
theorem refreshIdle_eq (s : State) (was : Bool) : s.refreshIdle was = { s with pcu := { s.pcu with
    idle := if s.pcu.unused then (if was then s.pcu.idle else idleStarted s.settings.idleTime s.pcu) else none } } := by
  unfold State.refreshIdle
  split
  · split <;> rfl
  · rfl

theorem idleStarted_unused {minutes : Nat} {p : Pcu} (unused : p.unused = true) :
    idleStarted minutes p = if p.power = some .full ∧ minutes ≠ 0 then some (minutes * 60 * 1024) else none := by
  simp [idleStarted, unused, unitsPerSecond]

/-- A fact held as reported, and what it makes of the idle timer. -/
theorem refreshIdle_holds {s : State} {c : Instr} {p : Pcu} (power : p.power = s.pcu.power) (idle : p.idle = s.pcu.idle) :
    let t := ({ s.taking c with pcu := p } : State).refreshIdle s.pcu.unused
    t = { Taken c s with pcu := t.pcu } ∧ t.pcu = { p with idle := t.pcu.idle } ∧ (t.pcu.unused = false → t.pcu.idle = none) ∧
      (s.pcu.unused = true → t.pcu.unused = true → t.pcu.idle = s.pcu.idle) ∧
      (s.pcu.unused = false → t.pcu.unused = true → t.pcu.idle =
        if s.pcu.power = some .full ∧ s.settings.idleTime ≠ 0 then some (s.settings.idleTime * 60 * 1024) else none) := by
  rw [refreshIdle_eq]
  refine ⟨rfl, rfl, fun used => ?_, fun was unused => ?_, fun was unused => ?_⟩
  · exact if_neg (by rw [Bool.not_eq_true]; exact used)
  · refine (if_pos unused).trans ((if_pos was).trans idle)
  · refine (if_pos unused).trans ((if_neg (by simp [was])).trans ?_)
    rw [← power]
    exact idleStarted_unused (p := p) unused

theorem exec_bookingCurrentReport (b : Bool) (s : State) : exec (.bookingCurrentReport b) s =
    .next (let u := ({ s.taking (.bookingCurrentReport b) with pcu := { s.pcu with bookingCurrent := b } } : State).refreshIdle s.pcu.unused
      if b then u.wakeUp .booking else u) := rfl

/-! ## Crystals (R136, R173) -/

theorem exec_roomCrystalStopped {s : State} (runs : s.pcu.room = .running) :
    exec .roomCrystalStopped s = .next ({ s with pcu := { s.pcu with room := .stopped, stopLatch := true } } : State).loseClock :=
  congrArg _ (if_neg (by simp [runs]))

theorem exec_audioCrystalStopped {s : State} (driven : s.pcu.audio ≠ .stopped) : exec .audioCrystalStopped s =
    .next (({ s with pcu := { s.pcu with audio := .stopped } } : State).audioStill.emit
      (if wantsAudio s.pcu.power then [.notice .power (audioPayload s.pcu.power .stopped)] else [])) :=
  congrArg _ (if_neg driven)

theorem wantsAudio_iff (p : Option Power) : wantsAudio p = true ↔ p = some .full ∨ p = some .waking ∨ p = some .quiet := by
  simp [wantsAudio, or_assoc]

theorem exec_audioCrystalRunning {s : State} (stopped : s.pcu.audio ≠ .running) (driven : s.pcu.power ≠ some .sleep) :
    exec .audioCrystalRunning s = .next { s with pcu := { s.pcu with audio := .running }, tbc := s.tbc.restarted } :=
  congrArg _ (if_neg (by simp [stopped, driven]))

/-- Settles O48. -/
theorem crystalsAndFacts : Obligations.CrystalsAndFacts := by
  intro b s
  refine ⟨fun runs known => ?stopped, rfl, fun driven => ?silent, fun stopped driven => ?runs, ⟨_, rfl, refreshIdle_holds rfl rfl⟩,
    ⟨_, rfl, refreshIdle_holds rfl rfl⟩, ⟨_, rfl, refreshIdle_holds rfl rfl⟩, fun quiet => ?wakeQuiet, fun sleep => ?wakeSleep⟩
  case stopped =>
    rw [exec_roomCrystalStopped runs, State.loseClock, if_neg known]
    rfl
  case silent =>
    rw [exec_audioCrystalStopped driven]
    refine ⟨_, rfl, rfl, rfl, rfl, rfl, fun x => ⟨?_, ?_⟩, ?_⟩
    · exact congrArg MixSeat.feed (silent_seat s.mix x)
    · exact (Tab.get_gen _ x).trans (by simp)
    · exact congrArg (s.flight ++ ·) (if_congr (wantsAudio_iff _) rfl rfl)
  case runs => exact ⟨_, exec_audioCrystalRunning stopped driven, rfl, rfl, rfl, rfl⟩
  case wakeQuiet =>
    rw [exec_bookingCurrentReport, refreshIdle_eq, if_pos rfl]
    dsimp only
    rw [wakeUp_quiet (by exact quiet)]
    refine ⟨_, rfl, rfl, rfl, rfl, ?_⟩
    rw [← quiet]
    exact setPower_told _ _ _ .booking
  case wakeSleep =>
    rw [exec_bookingCurrentReport, refreshIdle_eq, if_pos rfl]
    dsimp only
    rw [wakeUp_sleep (by exact sleep)]
    refine ⟨_, rfl, rfl, rfl, rfl, rfl, ?_⟩
    rw [← sleep]
    exact setPower_told _ _ _ .booking

/-! ## Power commands (R168 to R170, R172, R174, R176) -/

theorem exec_quiet (r : CmdRef) (s : State) : exec (.quiet r) s = .next (match s.pcu.power with
    | some .full => if s.meetingRuns then Answered (.quiet r) r .state [] s else ((s.taking (.quiet r)).enterQuiet .command).reply r .ok
    | some .quiet | some .sleep => Answered (.quiet r) r .ok [] s
    | some .waking | none => Answered (.quiet r) r .state [] s) := rfl

theorem exec_sleep (r : CmdRef) (s : State) : exec (.sleep r) s = .next (match s.pcu.power with
    | some .full => if s.meetingRuns then Answered (.sleep r) r .state [] s
      else (((s.taking (.sleep r)).enterQuiet .command).enterSleep .command).reply r .ok
    | some .quiet => if s.meetingRuns then Answered (.sleep r) r .state [] s else ((s.taking (.sleep r)).enterSleep .command).reply r .ok
    | some .sleep => Answered (.sleep r) r .ok [] s
    | some .waking | none => Answered (.sleep r) r .state [] s) := rfl

theorem setPower_prefix (s : State) (p : Power) (phase : Option Phase) (cause : PowerCause) :
    s.flight <+: (s.setPower p phase cause).flight := by
  rw [State.setPower_flight, List.append_assoc]
  exact List.prefix_append ..

theorem enterQuiet_prefix (s : State) (cause : PowerCause) : s.flight <+: (s.enterQuiet cause).flight := setPower_prefix _ _ _ cause

theorem enterSleep_prefix (s : State) (cause : PowerCause) : s.flight <+: (s.enterSleep cause).flight := setPower_prefix _ _ _ cause

/-- A command's result is the last report, whatever was sent before it. -/
theorem endsWith_reply_of_prefix {c : Instr} {s u : State} (before : (s.taking c).flight <+: u.flight) (r : CmdRef) (res : Result) (p : List Byte) :
    SentSome c s (u.reply r res p) (EndsWith (.blockResult r res p)) := by
  obtain ⟨out, sent⟩ := before
  exact endsWith_reply sent.symm r res p

theorem exec_sleep_full {s : State} (full : s.pcu.power = some .full) (free : s.meetingRuns = false) {r : CmdRef} :
    exec (.sleep r) s = .next ((((s.taking (.sleep r)).enterQuiet .command).enterSleep .command).reply r .ok) := by
  rw [exec_sleep, full]
  exact next_congr (if_neg (by simp [free]))

theorem exec_sleep_quiet {s : State} (quiet : s.pcu.power = some .quiet) (free : s.meetingRuns = false) {r : CmdRef} :
    exec (.sleep r) s = .next (((s.taking (.sleep r)).enterSleep .command).reply r .ok) := by
  rw [exec_sleep, quiet]
  exact next_congr (if_neg (by simp [free]))

/-- A reply keeps what was sent before it. -/
theorem mem_reply {s : State} {i : Instr} (sent : i ∈ s.flight) (r : CmdRef) (res : Result) (p : List Byte) : i ∈ (s.reply r res p).flight :=
  List.mem_append_left _ sent

/-- The entry to SLEEP keeps what was sent before it. -/
theorem mem_enterSleep {s : State} {i : Instr} (sent : i ∈ s.flight) (cause : PowerCause) : i ∈ (s.enterSleep cause).flight :=
  List.mem_append_left _ (List.mem_append_left _ sent)

/-- On the way to SLEEP the entry to QUIET is told too (R169). -/
theorem quietThenSleep_tells (s : State) (b : BlockId) :
    .powerStateReport b .quiet none ∈ ((s.enterQuiet .command).enterSleep .command).flight :=
  mem_enterSleep (enterQuiet_tells s .command b) .command

theorem quietThenSleep_told (s : State) : PowerTold ((s.enterQuiet .command).enterSleep .command) s.pcu.power .quiet .command :=
  mem_enterSleep (enterQuiet_told s .command) .command

theorem PowerFrame.trans {s t u : State} (first : PowerFrame s t) (next : PowerFrame t u) : PowerFrame s u :=
  Eq.trans next (congrArg (fun x : State => { x with pcu := u.pcu, cph := u.cph, flight := u.flight }) first)

theorem enterQuiet_frame (s : State) (cause : PowerCause) : PowerFrame s (s.enterQuiet cause) := rfl

theorem enterSleep_frame (s : State) (cause : PowerCause) : PowerFrame s (s.enterSleep cause) := rfl

/-- What SLEEP out of FULL or QUIET comes to (R169, R170). -/
def SleepEntered (r : CmdRef) (s t : State) : Prop :=
  PowerFrame s t ∧ t.pcu.power = some .sleep ∧ t.pcu.audio = .stopped ∧ t.pcu.sleep = none ∧
    (s.pcu.power = some .full → (∀ b, .powerStateReport b .quiet none ∈ t.flight) ∧ PowerTold t (some .full) .quiet .command) ∧
    (∀ b, .powerStateReport b .sleep none ∈ t.flight) ∧ PowerTold t (some .quiet) .sleep .command ∧
    SentSome (.sleep r) s t (EndsWith (.blockResult r .ok []))

theorem sleep_from_full {r : CmdRef} {s : State} (full : s.pcu.power = some .full) (free : s.meetingRuns = false) :
    ∃ t, exec (.sleep r) s = .next t ∧ SleepEntered r s t := by
  have tells : ∀ b, .powerStateReport b .quiet none ∈ ((((s.taking (.sleep r)).enterQuiet .command).enterSleep .command).reply r .ok).flight :=
    fun b => mem_reply (quietThenSleep_tells _ b) r .ok []
  have told : PowerTold ((((s.taking (.sleep r)).enterQuiet .command).enterSleep .command).reply r .ok) (some .full) .quiet .command := by
    rw [← full]
    exact mem_reply (quietThenSleep_told (s.taking (.sleep r))) r .ok []
  have asleep : ∀ b, .powerStateReport b .sleep none ∈ ((((s.taking (.sleep r)).enterQuiet .command).enterSleep .command).reply r .ok).flight :=
    fun b => mem_reply (enterSleep_tells _ .command b) r .ok []
  have slept : PowerTold ((((s.taking (.sleep r)).enterQuiet .command).enterSleep .command).reply r .ok) (some .quiet) .sleep .command :=
    mem_reply (enterSleep_told ((s.taking (.sleep r)).enterQuiet .command) .command) r .ok []
  have last := endsWith_reply_of_prefix (((enterQuiet_prefix (s.taking (.sleep r)) .command)).trans (enterSleep_prefix _ .command)) r .ok []
  have frame : PowerFrame s ((((s.taking (.sleep r)).enterQuiet .command).enterSleep .command).reply r .ok) :=
    PowerFrame.trans (PowerFrame.trans (t := s.taking (.sleep r)) rfl (enterQuiet_frame _ .command)) (PowerFrame.trans (enterSleep_frame _ .command) rfl)
  have entered : SleepEntered r s ((((s.taking (.sleep r)).enterQuiet .command).enterSleep .command).reply r .ok) :=
    ⟨frame, rfl, rfl, rfl, fun _ => ⟨tells, told⟩, asleep, slept, last⟩
  exact ⟨_, exec_sleep_full full free, entered⟩

theorem sleep_from_quiet {r : CmdRef} {s : State} (quiet : s.pcu.power = some .quiet) (free : s.meetingRuns = false) :
    ∃ t, exec (.sleep r) s = .next t ∧ SleepEntered r s t := by
  have asleep : ∀ b, .powerStateReport b .sleep none ∈ (((s.taking (.sleep r)).enterSleep .command).reply r .ok).flight :=
    fun b => mem_reply (enterSleep_tells _ .command b) r .ok []
  have slept : PowerTold (((s.taking (.sleep r)).enterSleep .command).reply r .ok) (some .quiet) .sleep .command :=
    quiet ▸ mem_reply (enterSleep_told (s.taking (.sleep r)) .command) r .ok []
  have last := endsWith_reply_of_prefix (enterSleep_prefix (s.taking (.sleep r)) .command) r .ok []
  have entered : SleepEntered r s (((s.taking (.sleep r)).enterSleep .command).reply r .ok) :=
    ⟨rfl, rfl, rfl, rfl, fun full => absurd (quiet.symm.trans full) (by simp), asleep, slept, last⟩
  exact ⟨_, exec_sleep_quiet quiet free, entered⟩

/-- Settles O50. -/
theorem powerCommands : Obligations.PowerCommands := by
  intro r n v s
  refine ⟨fun full free => ?quiet, fun awake free => ?sleep, fun full meeting => ?meeting, fun quiet => ?quietAgain,
    fun quiet meeting => ?sleepMeeting, fun sleep => ?asleep, fun waking => ?waking, fun full => ?wake, ?idleTime, rfl⟩
  case quiet =>
    rw [exec_quiet, full]
    dsimp only
    rw [if_neg (by simp [free])]
    refine ⟨_, rfl, rfl, rfl, rfl, sleepStarted_eq _, fun b => mem_reply (enterQuiet_tells _ _ b) .., ?_, endsWith_reply_of_prefix (enterQuiet_prefix (s.taking _) .command) ..⟩
    rw [← full]
    exact mem_reply (enterQuiet_told _ .command) ..
  case sleep =>
    obtain full | quiet := awake
    · exact sleep_from_full full free
    · exact sleep_from_quiet quiet free
  case meeting =>
    rw [exec_quiet, exec_sleep, full]
    dsimp only
    rw [if_pos meeting, if_pos meeting]
    exact ⟨rfl, rfl⟩
  case quietAgain => rw [exec_quiet, quiet]
  case sleepMeeting =>
    rw [exec_sleep, quiet]
    dsimp only
    rw [if_pos meeting]
  case asleep =>
    rw [exec_quiet, exec_sleep, sleep]
    exact ⟨rfl, rfl⟩
  case waking =>
    rw [exec_quiet, exec_sleep, waking]
    exact ⟨rfl, rfl⟩
  case wake => exact next_congr (whenFull_full r _ full)
  case idleTime =>
    refine ⟨_, next_congr (setNumber_clamped ..), rfl, ?_⟩
    have minutes : (clampInt 0 120 n).toNat ≠ 0 ↔ 0 < n := by unfold clampInt; omega
    exact congrArg (fun i => ({ s.pcu with idle := i } : Pcu)) (if_congr (and_congr_right fun _ => and_congr_right fun _ => minutes) rfl rfl)

end Sys2Proof.Machine
end

section
/-! PROOF. The booking store (chapter 6): what a change of a slot owes the write queue, the booking and participant commands, and the
writes that become durable. -/

namespace Sys2Proof.Machine

open Sys2Proof

/-! ## A change of a slot and its write (R128) -/

theorem persist_clean_of {b : Bks} {k : StoreSlot} (queued : k ∉ b.queue) (written : ∀ w ∈ b.writing, w.slot ≠ k) : b.persist k = .clean := by
  unfold Bks.persist
  split
  · rename_i w writing
    rw [if_neg (written w writing), if_neg queued]
  · rw [if_neg queued]

theorem persist_clean_iff {b : Bks} {k : StoreSlot} : b.persist k = .clean ↔ k ∉ b.queue ∧ ∀ w ∈ b.writing, w.slot ≠ k :=
  ⟨persist_clean, fun ⟨queued, written⟩ => persist_clean_of queued written⟩

theorem noteChange_owed (k : StoreSlot) (b : Bks) : (b.noteChange k).persist k ≠ .clean := by
  unfold Bks.noteChange
  split
  · exact fun clean => (persist_clean clean).1 (by simp)
  · rename_i dirty
    simp [dirty]
  · rename_i q writing
    intro clean
    obtain ⟨queued, written⟩ := persist_clean clean
    have none_written : ∀ w ∈ b.writing, w.slot ≠ k := fun w hw => written { w with requeue := true } (by rw [Option.mem_def.mp hw]; rfl)
    rw [persist_clean_of (b := b) queued none_written] at writing
    cases writing

theorem startWrite_owed {b : Bks} {k : StoreSlot} (owed : b.persist k ≠ .clean) : b.startWrite.persist k ≠ .clean := by
  unfold Bks.startWrite
  split
  · rename_i j rest idle _ queue
    intro clean
    obtain ⟨queued, written⟩ := persist_clean clean
    refine owed (persist_clean_of ?_ (by simp [idle]))
    rw [queue]
    simpa using ⟨fun e => written _ rfl e.symm, queued⟩
  · exact owed

/-- A changed slot is owed a write (R128). -/
theorem change_owed (k : StoreSlot) (b : Bks) : (b.change k).persist k ≠ .clean := startWrite_owed (noteChange_owed k b)

theorem setBooking_get (i : BSlot) (v : Option Booking) (b : Bks) (j : BSlot) :
    (b.setBooking i v).bookings.get j = if j = i then v else b.bookings.get j := by
  unfold Bks.setBooking
  split
  · split <;> simp_all
  · rw [change_bookings]
    exact Tab.get_upd ..

theorem setBooking_owed {i : BSlot} {v : Option Booking} {b : Bks} (differs : b.bookings.get i ≠ v) :
    (b.setBooking i v).persist (.booking i) ≠ .clean := by
  rw [Bks.setBooking, if_neg differs]
  exact change_owed _ _

@[simp] theorem setBooking_participants (i : BSlot) (v : Option Booking) (b : Bks) : (b.setBooking i v).participants = b.participants := by
  rw [setBooking_eq]

@[simp] theorem setBooking_durable (i : BSlot) (v : Option Booking) (b : Bks) : (b.setBooking i v).durable = b.durable := by
  rw [setBooking_eq]

@[simp] theorem setBooking_waiters (i : BSlot) (v : Option Booking) (b : Bks) : (b.setBooking i v).waiters = b.waiters := by
  rw [setBooking_eq]

theorem setParticipant_get (p : PIdx) (v : Option Participant) (b : Bks) (q : PIdx) :
    (b.setParticipant p v).participants.get q = if q = p then v else b.participants.get q := by
  unfold Bks.setParticipant
  split
  · split <;> simp_all
  · rw [change_participants]
    exact Tab.get_upd ..

theorem setParticipant_owed {p : PIdx} {v : Option Participant} {b : Bks} (differs : b.participants.get p ≠ v) :
    (b.setParticipant p v).persist (.participant p) ≠ .clean := by
  rw [Bks.setParticipant, if_neg differs]
  exact change_owed _ _

@[simp] theorem setParticipant_bookings (p : PIdx) (v : Option Participant) (b : Bks) : (b.setParticipant p v).bookings = b.bookings := by
  unfold Bks.setParticipant
  split <;> simp

@[simp] theorem setParticipant_waiters (p : PIdx) (v : Option Participant) (b : Bks) : (b.setParticipant p v).waiters = b.waiters := by
  unfold Bks.setParticipant
  split <;> simp

theorem await_cons (s : State) (r : CmdRef) (w : WriteWait) (ws : List WriteWait) (payload : List Byte) :
    s.await r (w :: ws) payload = { s with bks := { s.bks with waiters := s.bks.waiters ++ [⟨r, .ok, payload, w :: ws⟩] } } :=
  if_neg (List.cons_ne_nil w ws)

/-! ## A booking command that changed its slot (section 6.2) -/

/-- A booking set, reported by `out`, with the command waiting for the write. -/
def State.bookingChanged (s : State) (r : CmdRef) (i : BSlot) (v : Option Booking) (payload : List Byte) (out : List Instr) : State :=
  ((s.setBooking i v).emit out).await r [s.bks.waitOn (.booking i)] payload

theorem bookingChanged_eq (s : State) (r : CmdRef) (i : BSlot) (v : Option Booking) (payload : List Byte) (out : List Instr) :
    s.bookingChanged r i v payload out = { s with
      bks := { s.bks.setBooking i v with waiters := (s.bks.setBooking i v).waiters ++ [⟨r, .ok, payload, [s.bks.waitOn (.booking i)]⟩] }
      flight := s.flight ++ out } :=
  await_cons ..

/-- What a changed booking comes to, for the command `c` that changed it (R119, R121, R122, R128, R132). -/
theorem bookingChanged_spec {c : Instr} {s : State} {r : CmdRef} {i : BSlot} {v : Option Booking} {payload : List Byte} {out : List Instr}
    (differs : s.bks.bookings.get i ≠ v) (run : exec c s = .next ((s.taking c).bookingChanged r i v payload out)) :
    ∃ t, exec c s = .next t ∧ StoreFrame s t ∧ (∀ j, t.bks.bookings.get j = if j = i then v else s.bks.bookings.get j) ∧
      t.bks.participants = s.bks.participants ∧ t.bks.durable = s.bks.durable ∧ t.bks.persist (.booking i) ≠ .clean ∧
      t.bks.waiters = s.bks.waiters ++ [⟨r, .ok, payload, [s.bks.waitOn (.booking i)]⟩] ∧ Sent c s t out := by
  rw [bookingChanged_eq] at run
  have owed : (s.bks.setBooking i v).persist (.booking i) ≠ .clean := setBooking_owed differs
  have get := setBooking_get i v s.bks
  have waiters := congrArg (· ++ [(⟨r, .ok, payload, [s.bks.waitOn (.booking i)]⟩ : Waiter)]) (setBooking_waiters i v s.bks)
  exact ⟨_, run, rfl, get, setBooking_participants i v s.bks, setBooking_durable i v s.bks, owed, waiters, rfl⟩

/-! ## The slot of a new booking (R120) -/

theorem finRange_split {n : Nat} (i : Fin n) : ∃ l r, List.finRange n = l ++ i :: r ∧ (∀ j ∈ l, j < i) ∧ ∀ j ∈ r, i < j := by
  obtain ⟨l, r, split⟩ := List.append_of_mem (List.mem_finRange i)
  have sorted := List.pairwise_lt_finRange n
  rw [split, List.pairwise_append, List.pairwise_cons] at sorted
  obtain ⟨-, ⟨above, -⟩, below⟩ := sorted
  exact ⟨l, r, split, fun j m => below j m i (.head _), above⟩

/-- The lowest index for which `p` holds is found first. -/
theorem find_lowest {n : Nat} {p : Fin n → Bool} {i : Fin n} (holds : p i = true) (lowest : ∀ j, j < i → p j = false) :
    (List.finRange n).find? p = some i := by
  obtain ⟨l, r, split, below, -⟩ := finRange_split i
  have skipped : l.find? p = none := List.find?_eq_none.mpr fun j m => by simp [lowest j (below j m)]
  rw [split, List.find?_append, skipped, List.find?_cons_of_pos holds]
  rfl

theorem slotForAdd_free {b : Bks} {i : BSlot} (free : b.bookings.get i = none) (lowest : ∀ j, j < i → b.bookings.get j ≠ none) :
    b.slotForAdd = some i := by
  have found : allBSlots.find? (fun i => (b.bookings.get i).isNone) = some i :=
    find_lowest (by simp [free]) fun j below => by simpa [Option.isSome_iff_ne_none] using lowest j below
  rw [Bks.slotForAdd, found]

/-- One slot of the search for the earliest reclaim key. -/
def Bks.reclaimStep (b : Bks) (best : Option (BSlot × Nat)) (i : BSlot) : Option (BSlot × Nat) :=
  match b.spent i, best with
  | none, _ => best
  | some k, none => some (i, reclaimKey k)
  | some k, some (j, key) => if reclaimKey k < key then some (i, reclaimKey k) else some (j, key)

theorem reclaimable_eq (b : Bks) : b.reclaimable = (allBSlots.foldl b.reclaimStep none).map (·.1) := rfl

/-- Before the earliest key every best key found is later. -/
theorem reclaim_above {b : Bks} {key : Nat} (l : List BSlot) {best : Option (BSlot × Nat)} (later : ∀ j ∈ l, ∀ d ∈ b.spent j, key < reclaimKey d)
    (above : ∀ x ∈ best, key < x.2) : ∀ x ∈ l.foldl b.reclaimStep best, key < x.2 := by
  induction l generalizing best with
  | nil => exact above
  | cons j l ih =>
    refine ih (fun m mem => later m (.tail _ mem)) fun x mem => ?_
    unfold Bks.reclaimStep at mem
    split at mem
    · exact above x mem
    · rename_i d spent
      cases mem
      exact later j (.head _) d spent
    · rename_i d m k spent
      split at mem <;> cases mem
      · exact later j (.head _) d spent
      · exact above _ rfl

/-- After the earliest key the search stays. -/
theorem reclaim_kept {b : Bks} {key : Nat} {i : BSlot} (l : List BSlot) (later : ∀ j ∈ l, ∀ d ∈ b.spent j, key ≤ reclaimKey d) :
    l.foldl b.reclaimStep (some (i, key)) = some (i, key) := by
  induction l with
  | nil => rfl
  | cons j l ih =>
    have stays : b.reclaimStep (some (i, key)) j = some (i, key) := by
      unfold Bks.reclaimStep
      split
      · rfl
      · rename_i none
        cases none
      · rename_i d m k spent best
        cases best
        exact if_neg (Nat.not_lt.mpr (later j (.head _) d spent))
    rw [List.foldl_cons, stays]
    exact ih fun m mem => later m (.tail _ mem)

theorem mem_spent_iff {b : Bks} {j : BSlot} {d : Booking} : d ∈ b.spent j ↔ b.bookings.get j = some d ∧ isLive d.state = false := by
  unfold Bks.spent
  split
  · rename_i k held
    rw [held]
    split <;> grind
  · rename_i free
    simp [free]

/-- An earlier key is taken. -/
theorem reclaimStep_takes {b : Bks} {i : BSlot} {k : Booking} {best : Option (BSlot × Nat)} (spent : k ∈ b.spent i)
    (earlier : ∀ x ∈ best, reclaimKey k < x.2) : b.reclaimStep best i = some (i, reclaimKey k) := by
  unfold Bks.reclaimStep
  rw [Option.mem_def.mp spent]
  cases best with
  | none => rfl
  | some x => exact if_pos (earlier x rfl)

theorem mem_live_iff {b : Bks} {j : BSlot} {d : Booking} : d ∈ b.live j ↔ b.bookings.get j = some d ∧ isLive d.state = true := by
  unfold Bks.live
  split
  · rename_i k held
    rw [held]
    split <;> grind
  · rename_i free
    simp [free]

theorem reclaimable_earliest {b : Bks} {i : BSlot} {k : Booking} (held : b.bookings.get i = some k) (spent : isLive k.state = false)
    (earliest : ∀ j d, b.bookings.get j = some d → isLive d.state = false →
      reclaimKey k < reclaimKey d ∨ (reclaimKey k = reclaimKey d ∧ i ≤ j)) : b.reclaimable = some i := by
  obtain ⟨l, r, split, below, above⟩ := finRange_split i
  have before := reclaim_above (b := b) (key := reclaimKey k) l (best := none) (fun j mem d spent => by
    obtain ⟨heldD, spentD⟩ := mem_spent_iff.mp spent
    obtain earlier | ⟨-, later⟩ := earliest j d heldD spentD
    · exact earlier
    · exact absurd (below j mem) (not_lt_of_ge later)) nofun
  have taken := reclaimStep_takes (mem_spent_iff.mpr ⟨held, spent⟩) before
  have after := reclaim_kept (b := b) (key := reclaimKey k) (i := i) r fun j mem d spent => by
    obtain ⟨heldD, spentD⟩ := mem_spent_iff.mp spent
    have := earliest j d heldD spentD
    omega
  rw [reclaimable_eq, allBSlots, split, List.foldl_append, List.foldl_cons, taken, after]
  rfl

theorem find_none {n : Nat} {p : Fin n → Bool} (fails : ∀ i, p i = false) : (List.finRange n).find? p = none :=
  List.find?_eq_none.mpr fun i _ => by simp [fails i]

theorem slotForAdd_full {b : Bks} (full : ∀ j, b.bookings.get j ≠ none) : b.slotForAdd = b.reclaimable := by
  have found : allBSlots.find? (fun i => (b.bookings.get i).isNone) = none := find_none fun i => by simpa [Option.isSome_iff_ne_none] using full i
  rw [Bks.slotForAdd, found]

theorem reclaimable_none {b : Bks} (live : ∀ j, b.spent j = none) : b.reclaimable = none := by
  have stays : ∀ l : List BSlot, l.foldl b.reclaimStep none = none := fun l => by
    induction l with
    | nil => rfl
    | cons j l ih =>
      have here : b.reclaimStep none j = none := by simp [Bks.reclaimStep, live j]
      rw [List.foldl_cons, here, ih]
  rw [reclaimable_eq, stays]
  rfl

/-- A record clashes when the interval of a live booking in another slot overlaps its own (R119). -/
theorem clashes_iff {b : Bks} {but : Option BSlot} {k : Booking} :
    b.clashes but k = true ↔ ∃ j d, some j ≠ but ∧ b.bookings.get j = some d ∧ isLive d.state = true ∧ overlap k d = true := by
  simp only [Bks.clashes, allBSlots, List.any_eq_true, List.mem_finRange, true_and, Bool.and_eq_true, decide_eq_true_eq, Option.any_eq_true, ← and_assoc,
    ← mem_live_iff (b := b)]
  simp only [Option.mem_def, exists_and_left, and_assoc]

theorem clashes_false {b : Bks} {but : Option BSlot} {k : Booking}
    (clear : ∀ j d, some j ≠ but → b.bookings.get j = some d → isLive d.state = true → overlap k d = false) : b.clashes but k = false := by
  rw [Bool.eq_false_iff]
  intro clash
  obtain ⟨j, d, other, held, live, overlaps⟩ := clashes_iff.mp clash
  simp [clear j d other held live] at overlaps

/-! ## The booking commands (R119 to R123) -/

section
variable {r : CmdRef} {form : BookingForm} {k : Booking} {s : State}

theorem exec_addBooking_invalid (invalid : s.bks.recordOf form = none) :
    exec (.addBooking r form) s = .next (Answered (.addBooking r form) r .badArgument [] s) := by
  have run : exec (.addBooking r form) s = execAddBooking r form s := rfl
  rw [run, execAddBooking]
  simp only [State.taking_bks, invalid]
  rfl

/-- ADD-BOOKING of a valid record, its checks from the second on. -/
theorem exec_addBooking_valid (valid : s.bks.recordOf form = some k) : exec (.addBooking r form) s = .next (
    if s.msc.clock ≠ .set then Answered (.addBooking r form) r .clockUnset [] s
    else if k.stop.minutes ≤ s.msc.minuteNow then Answered (.addBooking r form) r .badArgument [] s
    else if s.bks.clashes none k then Answered (.addBooking r form) r .conflict [] s
    else match s.bks.slotForAdd with
      | none => Answered (.addBooking r form) r .full [] s
      | some i => (s.taking (.addBooking r form)).placeBooking r i k) := by
  have run : exec (.addBooking r form) s = execAddBooking r form s := rfl
  rw [run, execAddBooking]
  simp only [State.taking_bks, valid]
  rfl

theorem placeBooking_eq (i : BSlot) : s.placeBooking r i k = s.bookingChanged r i (some k) (u8 i.val)
    [.notice .booking (bookingPayload .added i k.calRef (s.bks.heldRef i)), .bookingReport (.added i)] :=
  congrArg (fun u : State => u.await r [s.bks.waitOn (.booking i)] (u8 i.val)) (State.emit_emit (s.setBooking i (some k)) _ _)

/-- ADD-BOOKING of a record that passes its checks goes to the slot found. -/
theorem exec_addBooking_placed (valid : s.bks.recordOf form = some k) (set : s.msc.clock = .set) (future : s.msc.minuteNow < k.stop.minutes)
    (clear : ∀ j d, s.bks.bookings.get j = some d → isLive d.state = true → overlap k d = false) {i : BSlot}
    (slot : s.bks.slotForAdd = some i) : exec (.addBooking r form) s = .next ((s.taking (.addBooking r form)).bookingChanged r i (some k) (u8 i.val)
      [.notice .booking (bookingPayload .added i k.calRef (s.bks.heldRef i)), .bookingReport (.added i)]) := by
  have free : s.bks.clashes none k = false := clashes_false fun j d _ => clear j d
  rw [exec_addBooking_valid valid, if_neg (by simp [set]), if_neg (Nat.not_le.mpr future), if_neg (by simp [free]), slot]
  exact next_congr (placeBooking_eq i)

theorem recordOf_scheduled {b : Bks} (valid : b.recordOf form = some k) : k.state = .scheduled := by
  unfold Bks.recordOf at valid
  split at valid
  · rename_i v made
    split at valid
    · cases valid
      unfold bookingOfForm at made
      split at made <;> cases made <;> rfl
    · cases valid
  · cases valid

theorem exec_cancelBooking {i : BSlot} (held : s.bks.bookings.get i = some k) (early : k.state = .scheduled ∨ k.state = .pending) :
    exec (.cancelBooking r (some i)) s = .next ((s.taking (.cancelBooking r (some i))).bookingChanged r i (some { k with state := .cancelled }) []
      [.notice .booking (bookingPayload .cancelled i k.calRef none), .bookingReport (.cancelled i (k.state = .pending))]) := by
  have run : exec (.cancelBooking r (some i)) s = execCancelBooking r (some i) s := rfl
  rw [run, execCancelBooking]
  simp only [State.taking_bks, held, if_pos early]
  exact congrArg (fun u : State => Host.Outcome.next (u.await r [s.bks.waitOn (.booking i)])) (State.emit_emit _ _ _)

theorem exec_deleteBooking {i : BSlot} (held : s.bks.bookings.get i = some k) (spent : isLive k.state = false) :
    exec (.deleteBooking r (some i)) s = .next ((s.taking (.deleteBooking r (some i))).bookingChanged r i none []
      [.notice .booking (bookingPayload .deleted i k.calRef none)]) := by
  have run : exec (.deleteBooking r (some i)) s = execDeleteBooking r (some i) s := rfl
  rw [run, execDeleteBooking]
  simp only [State.taking_bks, held]
  exact next_congr (if_neg (by simp [spent]))

/-- EDIT-BOOKING of a held booking whose edited form makes a valid record, its checks from the third on (R122). -/
theorem exec_editBooking {e : BookingEdit} {i : BSlot} {n : Booking} (held : s.bks.bookings.get i = some k) (allowed : editAllowed e k.state = true)
    (valid : s.bks.recordOf (editedForm e (formOfBooking k)) = some n) :
    exec (.editBooking r (some i) e) s = .next ((s.taking (.editBooking r (some i) e)).editChecked r i k (keepingLife k n)) := by
  have run : exec (.editBooking r (some i) e) s = execEditBooking r (some i) e s := rfl
  rw [run, execEditBooking]
  simp only [State.taking_bks, held, allowed, valid]
  rfl

theorem applyEdit_eq {i : BSlot} {old new : Booking} (differs : new ≠ old) : s.applyEdit r i old new = s.bookingChanged r i (some new) []
    [.notice .booking (bookingPayload .edited i new.calRef none),
      .bookingReport (.edited i old.plan new.plan (new.title ≠ old.title || new.organiser ≠ old.organiser) (new.start ≠ old.start))] := by
  rw [State.applyEdit, if_neg differs]
  exact congrArg (fun u : State => u.await r [s.bks.waitOn (.booking i)]) (State.emit_emit _ _ _)

theorem editChecked_sameTimes {i : BSlot} {old new : Booking} (start : new.start = old.start) (stop : new.stop = old.stop) :
    s.editChecked r i old new = s.applyEdit r i old new := if_pos ⟨start, stop⟩

/-- An edit with new times runs the checks of ADD-BOOKING (R122). -/
theorem editChecked_moved {i : BSlot} {old new : Booking} (moved : new.start ≠ old.start ∨ new.stop ≠ old.stop) :
    s.editChecked r i old new = if s.msc.clock ≠ .set then s.reply r .clockUnset
      else if new.stop.minutes ≤ s.msc.minuteNow then s.reply r .badArgument
      else if s.bks.clashes (some i) new then s.reply r .conflict
      else s.applyEdit r i old new := if_neg (not_and_or.mpr moved)
/-- EDIT-BOOKING with new times, its checks from the third on. -/
theorem exec_editBooking_moved {e : BookingEdit} {i : BSlot} {n : Booking} (held : s.bks.bookings.get i = some k)
    (allowed : editAllowed e k.state = true) (valid : s.bks.recordOf (editedForm e (formOfBooking k)) = some n)
    (moved : n.start ≠ k.start ∨ n.stop ≠ k.stop) : exec (.editBooking r (some i) e) s = .next (
      if s.msc.clock ≠ .set then Answered (.editBooking r (some i) e) r .clockUnset [] s
      else if n.stop.minutes ≤ s.msc.minuteNow then Answered (.editBooking r (some i) e) r .badArgument [] s
      else if s.bks.clashes (some i) (keepingLife k n) then Answered (.editBooking r (some i) e) r .conflict [] s
      else (s.taking (.editBooking r (some i) e)).applyEdit r i k (keepingLife k n)) :=
  (exec_editBooking held allowed valid).trans (next_congr (editChecked_moved (new := keepingLife k n) moved))

end

/-- Settles O39. -/
theorem bookingCommands : Obligations.BookingCommands := by
  intro r form e i k s
  refine ⟨fun valid set future clear free lowest => ?free, fun b valid set future clear full held spent earliest => ?reclaimed,
    fun b valid set future held live overlaps => ?conflict, fun valid set future live => ?full, fun valid set past => ?past,
    fun valid unset => ?unset, fun invalid => exec_addBooking_invalid invalid, fun held early => ?cancel, fun held spent => ?delete,
    fun n held allowed valid start stop differs => ?edit, fun n held allowed valid moved => ⟨fun unset => ?editUnset, fun set past => ?editPast,
      fun set future clear => ?moved, fun j b set future other heldB live overlaps => ?editConflict⟩⟩
  case free =>
    have unheld : s.bks.heldRef i = none := by rw [Bks.heldRef, free]; rfl
    exact bookingChanged_spec (by simp [free]) (unheld ▸ exec_addBooking_placed valid set future clear (slotForAdd_free free lowest))
  case reclaimed =>
    have ref : s.bks.heldRef i = some b.calRef := by rw [Bks.heldRef, held]; rfl
    have differs : s.bks.bookings.get i ≠ some k := fun same => by
      cases held.symm.trans same
      rw [recordOf_scheduled valid] at spent
      cases spent
    exact bookingChanged_spec differs
      (ref ▸ exec_addBooking_placed valid set future clear ((slotForAdd_full full).trans (reclaimable_earliest held spent earliest)))
  case conflict =>
    have clash : s.bks.clashes none k = true := clashes_iff.mpr ⟨i, b, nofun, held, live, overlaps⟩
    rw [exec_addBooking_valid valid, if_neg (by simp [set]), if_neg (Nat.not_le.mpr future), if_pos clash]
  case full =>
    have clear : s.bks.clashes none k = false := clashes_false fun j d _ held _ => by
      obtain ⟨d', held', -, clear⟩ := live j
      cases held.symm.trans held'
      exact clear
    have nowhere : s.bks.slotForAdd = none := by
      rw [slotForAdd_full fun j free => by obtain ⟨d, held, -⟩ := live j; cases held.symm.trans free]
      refine reclaimable_none fun j => Option.eq_none_iff_forall_not_mem.mpr fun d spent => ?_
      obtain ⟨held, dead⟩ := mem_spent_iff.mp spent
      obtain ⟨d', held', live, -⟩ := live j
      cases held.symm.trans held'
      rw [dead] at live
      cases live
    rw [exec_addBooking_valid valid, if_neg (by simp [set]), if_neg (Nat.not_le.mpr future), if_neg (by simp [clear]), nowhere]
  case past => rw [exec_addBooking_valid valid, if_neg (by simp [set]), if_pos past]
  case unset => rw [exec_addBooking_valid valid, if_pos unset]
  case cancel =>
    refine bookingChanged_spec (fun same => ?_) (exec_cancelBooking held early)
    have state := congrArg Booking.state (Option.some.inj (held.symm.trans same))
    rw [state] at early
    simp at early
  case delete => exact bookingChanged_spec (by simp [held]) (exec_deleteBooking held spent)
  case edit =>
    have run := exec_editBooking (r := r) held allowed valid
    rw [editChecked_sameTimes (new := keepingLife k n) start stop, applyEdit_eq differs] at run
    have still : decide ((keepingLife k n).start ≠ k.start) = false := decide_eq_false (not_not_intro start)
    rw [still] at run
    exact bookingChanged_spec (fun same => differs (Option.some.inj (held.symm.trans same)).symm) run
  case editUnset => rw [exec_editBooking_moved held allowed valid moved, if_pos unset]
  case editPast => rw [exec_editBooking_moved held allowed valid moved, if_neg (by simp [set]), if_pos past]
  case moved =>
    have differs : keepingLife k n ≠ k := fun same => moved.elim (fun start => start (congrArg Booking.start same :)) fun stop => stop (congrArg Booking.stop same :)
    have free : s.bks.clashes (some i) (keepingLife k n) = false :=
      clashes_false fun j d other => clear j d fun same => other (congrArg some same)
    have run := exec_editBooking_moved (r := r) held allowed valid moved
    rw [if_neg (by simp [set]), if_neg (Nat.not_le.mpr future), if_neg (by simp [free]), applyEdit_eq differs] at run
    exact bookingChanged_spec (fun same => differs (Option.some.inj (held.symm.trans same)).symm) run
  case editConflict =>
    have clash : s.bks.clashes (some i) (keepingLife k n) = true :=
      clashes_iff.mpr ⟨j, b, fun same => other (Option.some.inj same), heldB, live, overlaps⟩
    rw [exec_editBooking_moved held allowed valid moved, if_neg (by simp [set]), if_neg (Nat.not_le.mpr future),
      if_pos clash]

end Sys2Proof.Machine
end

section
/-! PROOF. Participants (section 6.4) and the writes that become durable (section 6.6). -/

namespace Sys2Proof.Machine

open Sys2Proof

/-! ## Valid participants (R118) -/

theorem isText_iff (lo hi : Nat) (t : Text) :
    isText lo hi t = true ↔ lo ≤ t.length ∧ t.length ≤ hi ∧ ∀ c ∈ t, 32 ≤ c.toNat ∧ c.toNat ≤ 126 := by
  simp [isText, isCharacter, and_assoc]

theorem validParticipant_iff (name note : Text) : validParticipant ⟨name, note⟩ = true ↔
    (1 ≤ name.length ∧ name.length ≤ 24 ∧ (∃ c ∈ name, c ≠ 32#8)) ∧ note.length ≤ 24 ∧ ∀ c ∈ name ++ note, 32 ≤ c.toNat ∧ c.toNat ≤ 126 := by
  have space : ∀ c : Byte, c.toNat ≠ 32 ↔ c ≠ 32#8 := fun c => by
    rw [ne_eq, ne_eq, ← BitVec.toNat_inj]
    rfl
  have visible : name.any (fun c => decide (c.toNat ≠ 32)) = true ↔ ∃ c ∈ name, c ≠ 32#8 := by
    simp only [List.any_eq_true, decide_eq_true_eq, space]
  simp only [validParticipant, Bool.and_eq_true, isText_iff, visible, List.mem_append, or_imp, forall_and]
  have none_short : 0 ≤ note.length := Nat.zero_le _
  tauto

/-! ## Adding and editing -/

section
variable {r : CmdRef} {s : State} {p : PIdx}

/-- A participant set, reported by `out`, with the command waiting for the write. -/
def State.participantChanged (s : State) (r : CmdRef) (p : PIdx) (v : Option Participant) (payload : List Byte) (out : List Instr) : State :=
  { s with
    bks := { s.bks.setParticipant p v with waiters := (s.bks.setParticipant p v).waiters ++ [⟨r, .ok, payload, [s.bks.waitOn (.participant p)]⟩] }
    flight := s.flight ++ out }

theorem participantChanged_spec {c : Instr} {v : Option Participant} {payload : List Byte} {out : List Instr}
    (differs : s.bks.participants.get p ≠ v) (run : exec c s = .next ((s.taking c).participantChanged r p v payload out)) :
    ∃ t, exec c s = .next t ∧ StoreFrame s t ∧ t.bks.bookings = s.bks.bookings ∧
      (∀ q, t.bks.participants.get q = if q = p then v else s.bks.participants.get q) ∧ t.bks.persist (.participant p) ≠ .clean ∧
      t.bks.waiters = s.bks.waiters ++ [⟨r, .ok, payload, [s.bks.waitOn (.participant p)]⟩] ∧ Sent c s t out := by
  have owed : (s.bks.setParticipant p v).persist (.participant p) ≠ .clean := setParticipant_owed differs
  have waiters := congrArg (· ++ [(⟨r, .ok, payload, [s.bks.waitOn (.participant p)]⟩ : Waiter)]) (setParticipant_waiters p v s.bks)
  exact ⟨_, run, rfl, setParticipant_bookings p v s.bks, setParticipant_get p v s.bks, owed, waiters, rfl⟩

theorem exec_addParticipant (name note : Text) : exec (.addParticipant r name note) s = .next (
    if !(validParticipant ⟨name, note⟩) then Answered (.addParticipant r name note) r .badArgument [] s
    else match (List.finRange 96).find? (fun p => !s.bks.holds p) with
      | none => Answered (.addParticipant r name note) r .full [] s
      | some p => (({ s.taking (.addParticipant r name note) with bks := s.bks.setParticipant p (some ⟨name, note⟩) } : State).notify .booking
          (participantPayload .participantAdded p)).await r [s.bks.waitOn (.participant p)] (u8 p.val)) := rfl

theorem exec_addParticipant_placed {name note : Text} (valid : validParticipant ⟨name, note⟩ = true) (free : s.bks.participants.get p = none)
    (lowest : ∀ q, q < p → s.bks.participants.get q ≠ none) :
    exec (.addParticipant r name note) s = .next ((s.taking (.addParticipant r name note)).participantChanged r p (some ⟨name, note⟩) (u8 p.val)
      [.notice .booking (participantPayload .participantAdded p)]) := by
  have found : (List.finRange 96).find? (fun p => !s.bks.holds p) = some p :=
    find_lowest (by simp [Bks.holds, free]) fun q below => by simpa [Bks.holds, Option.isSome_iff_ne_none] using lowest q below
  rw [exec_addParticipant, if_neg (by simp [valid]), found]
  exact next_congr (await_cons ..)

/-- EDIT-PARTICIPANT of a held participant, its checks from the third on (R124). -/
theorem exec_editParticipant {old : Participant} (held : s.bks.participants.get p = some old) (name note : Option Text) :
    exec (.editParticipant r (some p) name note) s = .next (
      if !(validParticipant ⟨name.getD old.name, note.getD old.note⟩) then Answered (.editParticipant r (some p) name note) r .badArgument [] s
      else if (⟨name.getD old.name, note.getD old.note⟩ : Participant) = old then Answered (.editParticipant r (some p) name note) r .ok [] s
      else ((({ s.taking (.editParticipant r (some p) name note) with
          bks := s.bks.setParticipant p (some ⟨name.getD old.name, note.getD old.note⟩) } : State).notify .booking
            (participantPayload .participantEdited p)).emit [.participantEditReport p]).await r [s.bks.waitOn (.participant p)]) := by
  have run : exec (.editParticipant r (some p) name note) s = execEditParticipant r (some p) name note s := rfl
  rw [run, execEditParticipant]
  simp only [State.taking_bks, held]
  rfl

theorem exec_editParticipant_invalid {old : Participant} (held : s.bks.participants.get p = some old) {name note : Option Text}
    (invalid : validParticipant ⟨name.getD old.name, note.getD old.note⟩ = false) :
    exec (.editParticipant r (some p) name note) s = .next (Answered (.editParticipant r (some p) name note) r .badArgument [] s) := by
  rw [exec_editParticipant held, if_pos (by simp [invalid])]

theorem exec_editParticipant_changed {old : Participant} (held : s.bks.participants.get p = some old) {name : Text}
    (valid : validParticipant ⟨name, old.note⟩ = true) (differs : name ≠ old.name) :
    exec (.editParticipant r (some p) (some name) none) s = .next ((s.taking (.editParticipant r (some p) (some name) none)).participantChanged r p
      (some ⟨name, old.note⟩) [] [.notice .booking (participantPayload .participantEdited p), .participantEditReport p]) := by
  have new : (⟨name, old.note⟩ : Participant) ≠ old := fun same => differs (congrArg Participant.name same)
  rw [exec_editParticipant held, if_neg (by simp [valid]), if_neg (by simpa using new), await_cons]
  have sent : ∀ f : List Instr, (f ++ [.notice .booking (participantPayload .participantEdited p)]) ++ [.participantEditReport p] =
      f ++ [.notice .booking (participantPayload .participantEdited p), .participantEditReport p] := fun f => by simp
  rw [State.participantChanged, ← sent]
  rfl

/-! ## Deleting (R125) -/

theorem mem_naming {b : Bks} {which : Booking → Bool} {i : BSlot} : i ∈ b.naming which p ↔
    ∃ k, b.bookings.get i = some k ∧ which k = true ∧ namesParticipant k p = true := by
  simp [Bks.naming, allBSlots, Option.any_eq_true]

/-- Bookings without the references to `gone`, at the listed slots alone. -/
theorem forget_get (gone : PIdx → Bool) {slots : List BSlot} (nodup : slots.Nodup) (b : Bks) (i : BSlot) :
    (b.forget gone slots).bookings.get i =
      if i ∈ slots then (b.bookings.get i).map (withoutParticipants gone) else b.bookings.get i := by
  induction slots generalizing b with
  | nil => rfl
  | cons j slots ih =>
    obtain ⟨fresh, nodup⟩ := List.nodup_cons.mp nodup
    have step : (b.forget gone (j :: slots)).bookings.get i =
        ((b.setBooking j ((b.bookings.get j).map (withoutParticipants gone))).forget gone slots).bookings.get i := rfl
    rw [step, ih nodup, setBooking_get]
    by_cases same : i = j
    · subst same
      simp [fresh]
    · simp [same]

theorem forget_eq (gone : PIdx → Bool) (slots : List BSlot) (b : Bks) : b.forget gone slots = { b with
    bookings := (b.forget gone slots).bookings, queue := (b.forget gone slots).queue, writing := (b.forget gone slots).writing } := by
  induction slots generalizing b with
  | nil => rfl
  | cons j slots ih =>
    exact (ih (b.setBooking j ((b.bookings.get j).map (withoutParticipants gone)))).trans
      (congrArg (fun x : Bks => { x with
        bookings := (b.forget gone (j :: slots)).bookings, queue := (b.forget gone (j :: slots)).queue
        writing := (b.forget gone (j :: slots)).writing }) (setBooking_eq j _ b))

/-- A booking that does not name a participant stands without it. -/
theorem withoutParticipants_unnamed {k : Booking} (unnamed : namesParticipant k p = false) : withoutParticipants (fun q => q = p) k = k := by
  obtain ⟨organiser, attendees⟩ := Bool.or_eq_false_iff.mp unnamed
  have organised : k.organiser.filter (fun q => !decide (q = p)) = k.organiser := by
    cases h : k.organiser with
    | none => rfl
    | some q => simp_all [Option.filter]
  have attended : k.plan.attendees.filter (fun a => !decide (a.2 = p)) = k.plan.attendees := by
    rw [List.filter_eq_self]
    intro a mem
    have := List.any_eq_false.mp attendees a mem
    simpa using this
  rw [withoutParticipants, organised, attended]

theorem withoutParticipants_one (k : Booking) : withoutParticipants (fun q => q = p) k = { k with
    organiser := if k.organiser = some p then none else k.organiser
    plan := { k.plan with attendees := k.plan.attendees.filter fun a => a.2 ≠ p } } := by
  have organised : k.organiser.filter (fun q => !decide (q = p)) = if k.organiser = some p then none else k.organiser := by
    cases k.organiser with
    | none => rfl
    | some q => simp [Option.filter]
  have attended : k.plan.attendees.filter (fun a => !decide (a.2 = p)) = k.plan.attendees.filter fun a => a.2 ≠ p := by simp
  rw [withoutParticipants, organised, attended]

/-- After a deletion that no live booking hinders, no booking names the participant. -/
theorem deleteParticipant_get {b : Bks} (unnamed : ∀ i k, b.bookings.get i = some k → isLive k.state = true → namesParticipant k p = false) (i : BSlot) :
    (b.deleteParticipant p).bookings.get i = (b.bookings.get i).map (withoutParticipants fun q => q = p) := by
  have nodup : (b.naming (fun k => !isLive k.state) p).Nodup := (List.nodup_finRange 32).filter _
  rw [Bks.deleteParticipant, forget_get _ nodup, setParticipant_bookings]
  split
  · rfl
  · rename_i notNamed
    cases held : b.bookings.get i with
    | none => rfl
    | some k =>
      have clear : namesParticipant k p = false := by
        cases live : isLive k.state with
        | true => exact unnamed i k held live
        | false =>
          rw [Bool.eq_false_iff]
          exact fun named => notNamed (mem_naming.mpr ⟨k, held, by simp [live], named⟩)
      rw [Option.map_some, withoutParticipants_unnamed clear]

theorem exec_deleteParticipant : exec (.deleteParticipant r (some p)) s = .next (
    if !s.bks.holds p then Answered (.deleteParticipant r (some p)) r .notFound [] s
    else if s.bks.naming (fun k => isLive k.state) p ≠ [] then Answered (.deleteParticipant r (some p)) r .conflict [] s
    else (({ s.taking (.deleteParticipant r (some p)) with bks := s.bks.deleteParticipant p } : State).notify .booking
      (participantPayload .participantDeleted p)).emit [.participantDeletionReport p] |>.await r (s.bks.deleteWaits p)) := rfl

end

/-- Settles O40. -/
theorem participantCommands : Obligations.ParticipantCommands := by
  intro r name note p s
  refine ⟨validParticipant_iff name note, fun invalid => ⟨?addInvalid, fun heldP => ?editInvalid⟩,
    fun old held => ⟨exec_editParticipant_invalid (name := some name) (note := none) held,
      exec_editParticipant_invalid (name := none) (note := some note) held⟩, fun valid free lowest => ?add,
    fun old held valid differs => ?edit, fun heldP unnamed => ?delete, fun i k heldP held live named => ?named⟩
  case addInvalid => rw [exec_addParticipant, if_pos (by simp [invalid])]
  case editInvalid =>
    obtain ⟨old, held⟩ := Option.ne_none_iff_exists'.mp heldP
    exact exec_editParticipant_invalid held invalid
  case add => exact participantChanged_spec (by simp [free]) (exec_addParticipant_placed valid free lowest)
  case edit =>
    have new : s.bks.participants.get p ≠ some ⟨name, old.note⟩ := fun same =>
      differs (congrArg Participant.name (Option.some.inj (held.symm.trans same))).symm
    obtain ⟨t, run, frame, bookings, set, owed, -, sent⟩ := participantChanged_spec new (exec_editParticipant_changed (r := r) held valid differs)
    exact ⟨t, run, frame, bookings, set, owed, sent⟩
  case delete =>
    have holds : s.bks.holds p = true := Option.isSome_iff_ne_none.mpr heldP
    have free : s.bks.naming (fun k => isLive k.state) p = [] := List.eq_nil_iff_forall_not_mem.mpr fun i mem => by
      obtain ⟨k, held, live, named⟩ := mem_naming.mp mem
      rw [unnamed i k held live] at named
      cases named
    have participants : ∀ q, (s.bks.deleteParticipant p).participants.get q = if q = p then none else s.bks.participants.get q := fun q => by
      rw [Bks.deleteParticipant, forget_eq]
      exact setParticipant_get p none s.bks q
    have bookings : ∀ i, (s.bks.deleteParticipant p).bookings.get i = _ := fun i =>
      (deleteParticipant_get unnamed i).trans (congrArg (Option.map · _) (funext withoutParticipants_one))
    refine ⟨_, exec_deleteParticipant.trans (next_congr ((if_neg (by simp [holds])).trans ((if_neg (by simp [free])).trans (await_cons ..)))), rfl,
      participants, bookings, ?_⟩
    exact List.append_assoc ..
  case named =>
    have holds : s.bks.holds p = true := Option.isSome_iff_ne_none.mpr heldP
    have found : s.bks.naming (fun k => isLive k.state) p ≠ [] := List.ne_nil_of_mem (mem_naming.mpr ⟨k, held, live, named⟩)
    rw [exec_deleteParticipant, if_neg (by simp [holds]), if_pos found]

/-! ## Writes (R128 to R132) -/

theorem startWrite_begins {b : Bks} {k : StoreSlot} {rest : List StoreSlot} (idle : b.writing = none) (free : b.supplyHeld = false)
    (queue : b.queue = k :: rest) : b.startWrite = { b with queue := rest, writing := some ⟨k, b.image k, false⟩ } := by
  unfold Bks.startWrite
  rw [idle, free, queue]

theorem startWrite_nothing {b : Bks} (queue : b.queue = []) : b.startWrite = b := by
  unfold Bks.startWrite
  split
  · rename_i k rest _ _ waiting
    cases queue.symm.trans waiting
  · rfl

theorem exec_storeWriteEnd {s : State} {w : WriteInFlight} (writing : s.bks.writing = some w) : exec .storeWriteEnd s =
    .next (({ s with bks := (s.bks.endWrite w).startWrite } : State).emit (s.bks.completed w.slot)) := by
  have run : exec .storeWriteEnd s = execStoreWriteEnd s := rfl
  rw [run, execStoreWriteEnd, writing]

/-- A command that waited on this write alone completes (R132). -/
theorem mem_completed {b : Bks} {k : StoreSlot} {u : Waiter} (waits : u ∈ b.waiters) (alone : u.waits = [⟨k, 0⟩]) :
    .blockResult u.ref u.result u.payload ∈ b.completed k := by
  have written : u.written k = { u with waits := [] } := by simp [Waiter.written, alone]
  refine List.mem_map.mpr ⟨u.written k, List.mem_filter.mpr ⟨List.mem_map_of_mem waits, ?_⟩, ?_⟩ <;> simp [written]

/-- What the end of the write `w` leaves of the queue, the waiters and the rest of the machine (R129, R132), whatever its image. -/
def WriteEnded (s : State) (w : StoreSlot) (q : Bool) (t : State) : Prop :=
  exec .storeWriteEnd s = .next t ∧ StoreFrame s t ∧
    t.bks.bookings = s.bks.bookings ∧ t.bks.participants = s.bks.participants ∧ t.bks.saveImage = s.bks.saveImage ∧
    (s.bks.supplyHeld = true → t.bks.writing = none ∧ t.bks.queue = s.bks.queue ++ (if q then [w] else [])) ∧
    (∀ k rest, s.bks.supplyHeld = false → s.bks.queue = k :: rest →
      t.bks.writing = some ⟨k, s.bks.image k, false⟩ ∧ t.bks.queue = rest ++ (if q then [w] else [])) ∧
    (s.bks.supplyHeld = false → s.bks.queue = [] →
      t.bks.writing = (if q then some ⟨w, s.bks.image w, false⟩ else none) ∧ t.bks.queue = []) ∧
    (∀ u ∈ s.bks.waiters, u.waits = [⟨w, 0⟩] → .blockResult u.ref u.result u.payload ∈ t.flight) ∧
    ∀ u ∈ t.bks.waiters, u.waits ≠ []

theorem endWrite_queue (b : Bks) (w : WriteInFlight) : (b.endWrite w).queue = b.queue ++ (if w.requeue then [w.slot] else []) := by
  have queue : (b.endWrite w).queue = if w.requeue then b.queue ++ [w.slot] else b.queue := rfl
  rw [queue]
  split <;> simp

/-- The working copies and the save image are not the write's to change. -/
theorem endWrite_image (b : Bks) (w : WriteInFlight) : (b.endWrite w).image = b.image := by
  funext k
  cases k <;> rfl

theorem writeEnded {s : State} {w : WriteInFlight} (writing : s.bks.writing = some w) :
    WriteEnded s w.slot w.requeue (({ s with bks := (s.bks.endWrite w).startWrite } : State).emit (s.bks.completed w.slot)) := by
  have same := startWrite_eq (s.bks.endWrite w)
  refine ⟨exec_storeWriteEnd writing, rfl, (congrArg Bks.bookings same :), (congrArg Bks.participants same :), (congrArg Bks.saveImage same :), fun held => ?held,
    fun k rest free queue => ?begins, fun free queue => ?idle, fun u mem alone => List.mem_append_right _ (mem_completed mem alone), fun u mem => ?waiting⟩
  case held =>
    have kept : (s.bks.endWrite w).startWrite = s.bks.endWrite w := startWrite_held held
    exact ⟨(congrArg Bks.writing kept :), (congrArg Bks.queue kept).trans (endWrite_queue ..)⟩
  case begins =>
    have waiting : (s.bks.endWrite w).queue = k :: (rest ++ if w.requeue then [w.slot] else []) := by rw [endWrite_queue, queue]; rfl
    have begun := startWrite_begins (b := s.bks.endWrite w) rfl free waiting
    rw [endWrite_image] at begun
    exact ⟨(congrArg Bks.writing begun :), (congrArg Bks.queue begun :)⟩
  case idle =>
    have waiting : (s.bks.endWrite w).queue = if w.requeue then [w.slot] else [] := by rw [endWrite_queue, queue]; rfl
    cases marked : w.requeue with
    | true =>
      have begun := startWrite_begins (b := s.bks.endWrite w) rfl free (waiting.trans (if_pos marked))
      rw [endWrite_image] at begun
      exact ⟨(congrArg Bks.writing begun :), (congrArg Bks.queue begun :)⟩
    | false =>
      have none_waits : (s.bks.endWrite w).queue = [] := waiting.trans (if_neg (by simp [marked]))
      have kept := startWrite_nothing none_waits
      exact ⟨(congrArg Bks.writing kept :), (congrArg Bks.queue kept).trans none_waits⟩
  case waiting =>
    have left : u ∈ (s.bks.endWrite w).waiters := (congrArg Bks.waiters same) ▸ mem
    simpa using (List.mem_filter.mp left).2

theorem endWrite_durable (b : Bks) (w : WriteInFlight) : (b.endWrite w).startWrite.durable = b.durable.store w.slot w.image := by
  rw [startWrite_eq]
  rfl

theorem exec_supplyWarningReport {s : State} {asserted : Bool} (changed : s.bks.supplyHeld ≠ asserted) : exec (.supplyWarningReport asserted) s =
    .next (({ s.taking (.supplyWarningReport asserted) with bks := { s.bks with supplyHeld := asserted }.startWrite } : State).notify .store
      (storePayload { s.bks with supplyHeld := asserted }.startWrite)) :=
  congrArg _ (if_neg changed)

theorem exec_saveSettings (r : CmdRef) (s : State) : exec (.saveSettings r) s = .next { s.taking (.saveSettings r) with
    bks := { Bks.change .settings { s.bks with saveImage := s.settings } with
      waiters := (Bks.change .settings { s.bks with saveImage := s.settings }).waiters ++ [⟨r, .ok, [], [s.bks.waitOn .settings]⟩] } } := by
  have run : exec (.saveSettings r) s = .next (({ s.taking (.saveSettings r) with
      bks := Bks.change .settings { s.bks with saveImage := s.settings } } : State).await r [s.bks.waitOn .settings]) := rfl
  rw [run, await_cons]

/-- Settles O41. -/
theorem writesBecomeDurable : Obligations.WritesBecomeDurable := by
  intro r s
  refine ⟨fun idle => ?idle, fun i v q writing => ?booking, fun p v q writing => ?participant, fun v q writing => ?settings, fun free => ?holds,
    fun k rest held idle queue => ?begins, congrArg _ (if_pos rfl), ?save⟩
  case idle =>
    have run : exec .storeWriteEnd s = execStoreWriteEnd s := rfl
    rw [run, execStoreWriteEnd, idle]
  case booking =>
    have durable := endWrite_durable s.bks ⟨.booking i, .booking v, q⟩
    exact ⟨_, writeEnded writing, fun j => (congrArg (fun d : Durable => d.bookings.get j) durable).trans (Tab.get_upd ..),
      (congrArg Durable.participants durable :), (congrArg Durable.settings durable :)⟩
  case participant =>
    have durable := endWrite_durable s.bks ⟨.participant p, .participant v, q⟩
    exact ⟨_, writeEnded writing, fun j => (congrArg (fun d : Durable => d.participants.get j) durable).trans (Tab.get_upd ..),
      (congrArg Durable.bookings durable :), (congrArg Durable.settings durable :)⟩
  case settings =>
    have durable := endWrite_durable s.bks ⟨.settings, .settings v, q⟩
    exact ⟨_, writeEnded writing, (congrArg Durable.settings durable :), (congrArg Durable.bookings durable :), (congrArg Durable.participants durable :)⟩
  case holds =>
    have held : Bks.startWrite { s.bks with supplyHeld := true } = { s.bks with supplyHeld := true } := startWrite_held rfl
    exact ⟨_, exec_supplyWarningReport (by simp [free]), held, rfl, rfl⟩
  case begins =>
    have begun : Bks.startWrite { s.bks with supplyHeld := false } =
        { s.bks with supplyHeld := false, queue := rest, writing := some ⟨k, s.bks.image k, false⟩ } :=
      startWrite_begins (b := { s.bks with supplyHeld := false }) idle rfl queue
    exact ⟨_, exec_supplyWarningReport (by simp [held]), rfl, begun, rfl⟩
  case save =>
    have owed := change_owed .settings { s.bks with saveImage := s.settings }
    have waiters := congrArg (· ++ [(⟨r, .ok, [], [s.bks.waitOn .settings]⟩ : Waiter)]) (change_waiters .settings { s.bks with saveImage := s.settings })
    exact ⟨_, exec_saveSettings r s, rfl, change_saveImage .settings { s.bks with saveImage := s.settings }, owed,
      change_bookings .settings { s.bks with saveImage := s.settings }, waiters⟩

end Sys2Proof.Machine
end

section
/-! PROOF. The bookings as the scheduler reads and moves them (chapter 7): the current booking, the bookings in order of start, what each
transition makes of its booking, and how far an evaluation goes. -/

namespace Sys2Proof.Machine

open Sys2Proof

/-! ## The current booking (section 7.2) -/

/-- The first index for which `p` holds, with none below it. -/
theorem find_finRange_iff {n : Nat} {p : Fin n → Bool} {i : Fin n} :
    (List.finRange n).find? p = some i ↔ p i = true ∧ ∀ j, j < i → p j = false := by
  refine ⟨fun found => ?_, fun ⟨holds, lowest⟩ => find_lowest holds lowest⟩
  obtain ⟨holds, l, r, split, skipped⟩ := List.find?_eq_some_iff_append.mp found
  refine ⟨holds, fun j below => ?_⟩
  have sorted := List.pairwise_lt_finRange n
  rw [split, List.pairwise_append, List.pairwise_cons] at sorted
  obtain ⟨-, ⟨above, -⟩, -⟩ := sorted
  have mem : j ∈ l ++ i :: r := split ▸ List.mem_finRange j
  obtain before | same | after := by simpa only [List.mem_append, List.mem_cons] using mem
  · simpa using skipped j before
  · exact absurd same (ne_of_lt below)
  · exact absurd (above j after) (not_lt_of_gt below)

theorem currentSlot_eq (s : State) : s.currentSlot = (List.finRange 32).find? fun j => (s.bks.bookings.get j).any fun k => isCurrent k.state := by
  refine congrArg (List.find? · (List.finRange 32)) (funext fun j => ?_)
  cases s.bks.bookings.get j <;> rfl

theorem currentSlot_some_iff {s : State} {i : BSlot} : s.currentSlot = some i ↔
    (∃ k, s.bks.bookings.get i = some k ∧ isCurrent k.state = true) ∧
      ∀ j, j < i → ∀ b, s.bks.bookings.get j = some b → isCurrent b.state = false := by
  rw [currentSlot_eq, find_finRange_iff]
  simp [Option.any_eq_true, Option.any_eq_false]

theorem currentSlot_none_iff {s : State} : s.currentSlot = none ↔ ∀ j b, s.bks.bookings.get j = some b → isCurrent b.state = false := by
  rw [currentSlot_eq, List.find?_eq_none]
  simp [Option.any_eq_false]

theorem current_some_iff {s : State} {i : BSlot} {k : Booking} : s.current = some (i, k) ↔
    s.currentSlot = some i ∧ s.bks.bookings.get i = some k := by
  unfold State.current State.held
  cases slot : s.currentSlot with
  | none => simp
  | some j => cases held : s.bks.bookings.get j <;> simp <;> grind

theorem current_none_iff {s : State} : s.current = none ↔ s.currentSlot = none := by
  refine ⟨fun free => ?_, fun free => by rw [State.current, free]; rfl⟩
  cases slot : s.currentSlot with
  | none => rfl
  | some i =>
    obtain ⟨⟨k, held, -⟩, -⟩ := currentSlot_some_iff.mp slot
    cases free.symm.trans (current_some_iff.mpr ⟨slot, held⟩)

/-! ## A booking rewritten -/

/-- The booking of slot `i` is now `b`, and the others stand. -/
def BookingSet (i : BSlot) (b : Booking) (s t : State) : Prop :=
  ∀ j, t.bks.bookings.get j = if j = i then some b else s.bks.bookings.get j

section
variable {i : BSlot} {b k : Booking} {s t u : State}

theorem BookingSet.here (set : BookingSet i b s t) : t.bks.bookings.get i = some b := (set i).trans (if_pos rfl)

theorem BookingSet.there (set : BookingSet i b s t) {j : BSlot} (other : j ≠ i) : t.bks.bookings.get j = s.bks.bookings.get j :=
  (set j).trans (if_neg other)

theorem BookingSet.again {c : Booking} (first : BookingSet i b s t) (next : BookingSet i c t u) : BookingSet i c s u := fun j => by
  rw [next j, first j]
  split <;> rfl

theorem BookingSet.of_bks (set : BookingSet i b s t) (same : u.bks = t.bks) : BookingSet i b s u := fun j => by rw [same, set j]

/-- A booking that becomes, or stays, a current one is the current booking where it was or none was. -/
theorem BookingSet.current (set : BookingSet i b s t) (free : s.current = none ∨ s.currentSlot = some i) (current : isCurrent b.state = true) :
    t.current = some (i, b) := by
  refine current_some_iff.mpr ⟨currentSlot_some_iff.mpr ⟨⟨b, set.here, current⟩, fun j below c held => ?_⟩, set.here⟩
  rw [set.there (ne_of_lt below)] at held
  obtain free | slot := free
  · exact currentSlot_none_iff.mp (current_none_iff.mp free) j c held
  · exact (currentSlot_some_iff.mp slot).2 j below c held

end

/-! ## Bookings in order of start (R155) -/

theorem mem_insertByStart (a x : BSlot × Booking) (l : List (BSlot × Booking)) : x ∈ insertByStart a l ↔ x = a ∨ x ∈ l := by
  induction l with
  | nil => simp [insertByStart]
  | cons b l ih =>
    unfold insertByStart
    split
    · exact List.mem_cons
    · rw [List.mem_cons, ih, List.mem_cons, or_left_comm]

theorem mem_insertAll (x : BSlot × Booking) (l m : List (BSlot × Booking)) :
    x ∈ l.foldl (fun l a => insertByStart a l) m ↔ x ∈ l ∨ x ∈ m := by
  induction l generalizing m with
  | nil => simp
  | cons a l ih => rw [List.foldl_cons, ih, mem_insertByStart, List.mem_cons, ← or_assoc, or_comm (a := x ∈ l)]

theorem mem_byStart {s : State} {p : Booking → Bool} {a : BSlot × Booking} :
    a ∈ s.byStart p ↔ s.bks.bookings.get a.1 = some a.2 ∧ p a.2 = true := by
  obtain ⟨i, k⟩ := a
  simp [State.byStart, mem_insertAll, allBSlots, State.held]

/-- Where one booking alone is asked for, it is the list. -/
theorem byStart_only {s : State} {p : Booking → Bool} {i : BSlot} {k : Booking} (held : s.bks.bookings.get i = some k) (asked : p k = true)
    (others : ∀ j b, j ≠ i → s.bks.bookings.get j = some b → p b = false) : s.byStart p = [(i, k)] := by
  obtain ⟨l, r, split, below, above⟩ := finRange_split i
  have none_of : ∀ m : List BSlot, (∀ j ∈ m, j ≠ i) → (m.filterMap s.held).filter (fun a => p a.2) = [] := fun m other => by
    rw [List.filter_eq_nil_iff]
    intro a mem
    obtain ⟨j, here, found⟩ := List.mem_filterMap.mp mem
    obtain ⟨b, got, rfl⟩ := Option.map_eq_some_iff.mp found
    simp [others j b (other j here) got]
  have own : s.held i = some (i, k) := by rw [State.held, held]; rfl
  have all : (allBSlots.filterMap s.held).filter (fun a => p a.2) = [(i, k)] := by
    rw [allBSlots, split, List.filterMap_append, List.filter_append, none_of l fun j m => ne_of_lt (below j m), List.filterMap_cons_some own,
      List.filter_cons_of_pos (by simpa using asked), none_of r fun j m => ne_of_gt (above j m), List.nil_append]
  rw [State.byStart, all]
  rfl

/-- A booking's slot and start, all that the order of start looks at. -/
def startOf (a : BSlot × Booking) : BSlot × Booking := (a.1, { (default : Booking) with start := a.2.start })

theorem map_insertByStart (a : BSlot × Booking) (l : List (BSlot × Booking)) :
    (insertByStart a l).map startOf = insertByStart (startOf a) (l.map startOf) := by
  induction l with
  | nil => rfl
  | cons b l ih =>
    have put : ∀ c, insertByStart c (b :: l) = if comesBefore c b then c :: b :: l else b :: insertByStart c l := fun _ => rfl
    have moved : insertByStart (startOf a) (startOf b :: l.map startOf) =
        if comesBefore a b then startOf a :: startOf b :: l.map startOf else startOf b :: insertByStart (startOf a) (l.map startOf) := rfl
    rw [put, List.map_cons, moved, ← ih]
    split <;> rfl

theorem map_insertAll (l m : List (BSlot × Booking)) : (l.foldl (fun l a => insertByStart a l) m).map startOf =
    (l.map startOf).foldl (fun l a => insertByStart a l) (m.map startOf) := by
  induction l generalizing m with
  | nil => rfl
  | cons a l ih => rw [List.foldl_cons, ih, map_insertByStart]; rfl

/-- The starts of the bookings asked for, read slot by slot. -/
theorem starts_eq (s : State) (p : Booking → Bool) : ((allBSlots.filterMap s.held).filter fun a => p a.2).map startOf =
    allBSlots.filterMap fun j => ((s.bks.bookings.get j).filter p).map fun k => startOf (j, k) := by
  induction allBSlots with
  | nil => rfl
  | cons j l ih =>
    cases held : s.bks.bookings.get j with
    | none =>
      rw [List.filterMap_cons_none (by rw [State.held, held]; rfl), List.filterMap_cons_none (by rw [held]; rfl), ih]
    | some k =>
      rw [List.filterMap_cons_some (by rw [State.held, held]; rfl)]
      cases asked : p k with
      | true =>
        rw [List.filter_cons_of_pos (by simpa using asked), List.filterMap_cons_some (b := startOf (j, k)) (by simp [held, asked]), List.map_cons, ih]
      | false => rw [List.filter_cons_of_neg (by simp [asked]), List.filterMap_cons_none (by simp [held, asked]), ih]

theorem byStart_starts (s : State) (p : Booking → Bool) : (s.byStart p).map startOf =
    (allBSlots.filterMap fun j => ((s.bks.bookings.get j).filter p).map fun k => startOf (j, k)).foldl (fun l a => insertByStart a l) [] := by
  rw [State.byStart, map_insertAll, starts_eq]
  rfl

theorem nextStartFrom_eq (s : State) (i : BSlot) (instant : Nat) : s.nextStartFrom i instant =
    (((s.byStart fun k => isLive k.state && instant ≤ instantOf k.start).map startOf).find? fun a => a.1 ≠ i).map fun a => instantOf a.2.start := by
  rw [List.find?_map, Option.map_map]
  rfl

/-- The next start hangs on which bookings are live and on their starts alone. -/
theorem nextStartFrom_congr {s t : State} {i : BSlot} {b k : Booking} (set : BookingSet i b s t) (held : s.bks.bookings.get i = some k)
    (live : isLive b.state = isLive k.state) (start : b.start = k.start) (instant : Nat) : t.nextStartFrom i instant = s.nextStartFrom i instant := by
  have same : ∀ j : BSlot, ((t.bks.bookings.get j).filter fun k => isLive k.state && instant ≤ instantOf k.start).map (fun k => startOf (j, k)) =
      ((s.bks.bookings.get j).filter fun k => isLive k.state && instant ≤ instantOf k.start).map (fun k => startOf (j, k)) := fun j => by
    by_cases here : j = i
    · subst here
      rw [set.here, held]
      simp only [Option.filter_some, live, start]
      split
      · simp [startOf, start]
      · rfl
    · rw [set.there here]
  rw [nextStartFrom_eq, nextStartFrom_eq, byStart_starts, byStart_starts, funext same]

theorem graceDeadline_congr {s t : State} {i : BSlot} {b k : Booking} (set : BookingSet i b s t) (held : s.bks.bookings.get i = some k)
    (live : isLive b.state = isLive k.state) (start : b.start = k.start) (stop : b.stop = k.stop) (grace : Nat) :
    t.graceDeadline i b grace = s.graceDeadline i k grace := by
  unfold State.graceDeadline
  rw [stop, nextStartFrom_congr set held live start]

/-- With no other booking live the grace runs its whole length. -/
theorem graceDeadline_alone {s : State} {i : BSlot} (others : ∀ j b, j ≠ i → s.bks.bookings.get j = some b → isLive b.state = false)
    (k : Booking) (grace : Nat) : s.graceDeadline i k grace = instantOf k.stop + 60 * grace := by
  have none_next : s.nextStartFrom i (instantOf k.stop) = none := by
    rw [State.nextStartFrom, List.find?_eq_none.mpr]
    · rfl
    · intro a mem
      obtain ⟨held, asked⟩ := mem_byStart.mp mem
      by_contra other
      rw [others a.1 a.2 (by simpa using other) held] at asked
      cases asked
  rw [State.graceDeadline, none_next]

/-! ## Transitions (R138) -/

section
variable {s t u : State} {i : BSlot} {k : Booking}

theorem transition_set (s : State) (i : BSlot) (k : Booking) (new : BState) (edit : Booking → Booking) :
    BookingSet i (s.msc.entered new (edit k)) s (s.transition i k new edit) := setBooking_get i _ s.bks

theorem transition_told (s : State) (i : BSlot) (k : Booking) (new : BState) (edit : Booking → Booking) :
    TransitionTold (s.transition i k new edit) i k k.state new := List.mem_append_right _ (.head _)

/-- What was sent stays sent. -/
theorem TransitionTold.later {old new : BState} (told : TransitionTold t i k old new) (later : t.flight <+: u.flight) :
    TransitionTold u i k old new := later.subset told

theorem refreshAgenda_eq (s : State) : s.refreshAgenda =
    { s with msc := { s.msc with agendaSent := s.refreshAgenda.msc.agendaSent }, flight := s.refreshAgenda.flight } := by
  unfold State.refreshAgenda
  split <;> rfl

theorem refreshAgenda_bks (s : State) : s.refreshAgenda.bks = s.bks := by rw [refreshAgenda_eq]

theorem activate_set (s : State) (i : BSlot) (k : Booking) (edit : Booking → Booking) :
    BookingSet i (s.msc.entered .active (edit k)) s (s.activate i k edit) := transition_set (s.remember none none) i k .active edit

theorem activate_told (s : State) (i : BSlot) (k : Booking) (edit : Booking → Booking) :
    TransitionTold (s.activate i k edit) i k k.state .active :=
  (transition_told (s.remember none none) i k .active edit).later ((Scheduled.refl _).activationEffects _).flight

/-- An ending leaves the clock's memory of the current booking alone or forgets it, and then moves the booking. -/
theorem endBooking_set (s : State) (i : BSlot) (k : Booking) (new : BState) :
    BookingSet i (s.msc.entered new k) s (s.endBooking i k new) := by
  unfold State.endBooking
  split
  · exact transition_set (s.remember none none) i k new id
  · exact transition_set s i k new id

theorem endBooking_told (s : State) (i : BSlot) (k : Booking) (new : BState) : TransitionTold (s.endBooking i k new) i k k.state new :=
  (transition_told _ i k new id).later (Scheduled.refl _).endingEffects.flight

theorem enterEnding_set (s : State) (i : BSlot) (k : Booking) (grace : Nat) :
    BookingSet i { k with state := .ending } s (s.enterEnding i k grace) :=
  (transition_set (s.remember none (some grace)) i k .ending id).of_bks (refreshAgenda_bks _)

theorem enterEnding_told (s : State) (i : BSlot) (k : Booking) (grace : Nat) :
    TransitionTold (s.enterEnding i k grace) i k k.state .ending :=
  (transition_told (s.remember none (some grace)) i k .ending id).later ((Scheduled.refl _).refreshAgenda.emit _).flight

/-! ## The check of the flags (R143) -/

theorem keyFlagCheck_clear (noFlag : ∀ x, (s.tbc.seats.get x).flag.mic = false) (i : BSlot) : s.keyFlagCheck i = s := by
  unfold State.keyFlagCheck
  split
  · rfl
  · exact if_neg (by simp [noFlag])

theorem keyFlagCheck_flagged (held : s.bks.bookings.get i = some k) (flagged : ∃ x, (s.tbc.seats.get x).flag.mic = true ∧ qualifies k x = true) :
    s.keyFlagCheck i = (s.clearKeyFlags (qualifies k) [.mic]).checkInNow i k := by
  obtain ⟨x, flag, counts⟩ := flagged
  unfold State.keyFlagCheck
  rw [held]
  exact if_pos (List.any_eq_true.mpr ⟨x, List.mem_finRange x, by simp [flag, counts]⟩)

theorem clearKeyFlags_mic (s : State) (p : Seat → Bool) (x : Seat) : (s.clearKeyFlags p [.mic]).tbc.seats.get x =
    if p x then { s.tbc.seats.get x with flag := (s.tbc.seats.get x).flag.upd .mic false } else s.tbc.seats.get x :=
  (Tab.get_gen _ x).trans rfl

theorem clearKeyFlags_cleared (s : State) {p : Seat → Bool} {x : Seat} (named : p x = true) :
    ((s.clearKeyFlags p [.mic]).tbc.seats.get x).flag.mic = false := by
  rw [clearKeyFlags_mic, if_pos named]
  rfl

theorem checkInNow_pending (pending : k.state = .pending) (fresh : k.checkedIn = false) : s.checkInNow i k =
    (s.setBooking i (some { k with checkedIn := true })).notify .booking (checkedInPayload i k.calRef) := by
  unfold State.checkInNow
  rw [pending]
  exact if_neg (by simp [fresh])

theorem checkInNow_awaiting (awaiting : k.state = .awaiting) : s.checkInNow i k = s.activate i k fun b => { b with checkedIn := true } := by
  unfold State.checkInNow
  rw [awaiting]

/-! ## Only the slot moves -/

/-- No booking but that of slot `i` changed. -/
def OnlyAt (i : BSlot) (s t : State) : Prop := ∀ j, j ≠ i → t.bks.bookings.get j = s.bks.bookings.get j

theorem BookingSet.only {b : Booking} (set : BookingSet i b s t) : OnlyAt i s t := fun _ other => set.there other

theorem OnlyAt.trans (first : OnlyAt i s t) (next : OnlyAt i t u) : OnlyAt i s u := fun j other => (next j other).trans (first j other)

theorem OnlyAt.of_bks (only : OnlyAt i s t) (same : u.bks = t.bks) : OnlyAt i s u := fun j other => by rw [same, only j other]

theorem onlyAt_refl : OnlyAt i s s := fun _ _ => rfl

theorem onlyAt_checkInNow : OnlyAt i s (s.checkInNow i k) := by
  unfold State.checkInNow
  split
  · split
    · exact onlyAt_refl
    · exact fun j other => (setBooking_get i _ s.bks j).trans (if_neg other)
  · exact (activate_set s i k _).only
  · exact onlyAt_refl

theorem onlyAt_keyFlagCheck : OnlyAt i s (s.keyFlagCheck i) := by
  unfold State.keyFlagCheck
  split
  · exact onlyAt_refl
  · split
    · exact onlyAt_checkInNow (s := s.clearKeyFlags _ _)
    · exact onlyAt_refl

/-- Entry to PENDING or AWAITING, up to the check of the flags (R140, R141). -/
def State.entering (s : State) (since : Option Nat) (i : BSlot) (k : Booking) (new : BState) : State :=
  ((s.remember since none).transition i k new id).askWake.refreshAgenda

theorem enterPending_eq : s.enterPending i k = (s.entering none i k .pending).keyFlagCheck i := rfl

theorem enterAwaiting_eq : s.enterAwaiting i k = (s.entering (some s.msc.minuteInstant) i k .awaiting).keyFlagCheck i := rfl

theorem entering_set (s : State) (since : Option Nat) (i : BSlot) (k : Booking) (new : BState) :
    BookingSet i (s.msc.entered new k) s (s.entering since i k new) :=
  (transition_set (s.remember since none) i k new id).of_bks (refreshAgenda_bks _)

theorem scheduled_entering (s : State) (since : Option Nat) (i : BSlot) (k : Booking) (new : BState) : Scheduled s (s.entering since i k new) :=
  (((scheduled_remember s since none).transition i k new id).emit _).refreshAgenda

theorem entering_told (s : State) (since : Option Nat) (i : BSlot) (k : Booking) (new : BState) :
    TransitionTold (s.entering since i k new) i k k.state new :=
  (transition_told (s.remember since none) i k new id).later ((Scheduled.refl _).emit _).refreshAgenda.flight

theorem entering_wakes (s : State) (since : Option Nat) (i : BSlot) (k : Booking) (new : BState) :
    .wakeRequest .booking ∈ (s.entering since i k new).flight ∧ .bookingCurrentReport true ∈ (s.entering since i k new).flight := by
  have told := ((Scheduled.refl ((s.remember since none).transition i k new id).askWake).refreshAgenda).flight.subset
  exact ⟨told (List.mem_append_right _ (.head _)), told (List.mem_append_right _ (.tail _ (.head _)))⟩

theorem entering_tbc (s : State) (since : Option Nat) (i : BSlot) (k : Booking) (new : BState) : (s.entering since i k new).tbc = s.tbc := by
  rw [State.entering, refreshAgenda_eq]
  rfl

theorem entering_since (s : State) (since : Option Nat) (i : BSlot) (k : Booking) (new : BState) :
    (s.entering since i k new).msc.awaitingSince = since := by
  rw [State.entering, refreshAgenda_eq]
  rfl

theorem beginBooking_gathered (had : gathered k = true) : s.beginBooking i k = (s.emit [.wakeRequest .booking]).activate i k id := if_pos had

theorem beginBooking_missing (missing : gathered k = false) : s.beginBooking i k = s.enterAwaiting i k := if_neg (by simp [missing])

theorem onlyAt_beginBooking : OnlyAt i s (s.beginBooking i k) := by
  unfold State.beginBooking
  split
  · exact (activate_set (s.emit _) i k id).only
  · exact (entering_set s _ i k .awaiting).only.trans onlyAt_keyFlagCheck

end

end Sys2Proof.Machine
end

section
/-! PROOF. Evaluations (R139): which bookings they leave alone, and where they end after one transition; the clock, check-in, and the ends and
moves of meetings. -/

namespace Sys2Proof.Machine

open Sys2Proof

section
variable {s t : State} {i : BSlot} {k : Booking}

theorem Scheduled.now (h : Scheduled s t) : t.now = s.now := by
  obtain ⟨-, day, second⟩ := h.clock
  rw [State.now, State.now, day, second]

theorem Scheduled.settings (h : Scheduled s t) : t.settings = s.settings := (congrArg State.settings h.frame :)

theorem ScheduleFrame.trans {u : State} (first : ScheduleFrame s t) (next : ScheduleFrame t u) : ScheduleFrame s u :=
  Eq.trans next (congrArg (fun x : State => { x with msc := u.msc, bks := u.bks, tbc := u.tbc, flight := u.flight }) first)

theorem ScheduleFrame.reply (frame : ScheduleFrame s t) (r : CmdRef) (res : Result) (p : List Byte) : ScheduleFrame s (t.reply r res p) :=
  frame.trans rfl

/-! ## Bookings an evaluation leaves alone -/

/-- A booking at rest has no transition due: it is spent, or a meeting before its end. -/
def Rests (now : Nat) (k : Booking) : Prop := isLive k.state = false ∨ (k.state = .active ∧ now < instantOf k.stop)

theorem dueOfCurrent_moves (due : s.dueOfCurrent i k = some t) : ¬ Rests s.now k ∧ OnlyAt i s t := by
  unfold State.dueOfCurrent at due
  split at due
  · rename_i state
    split at due <;> cases due
    exact ⟨by simp [Rests, state, isLive], onlyAt_beginBooking⟩
  · rename_i state
    split at due <;> cases due
    exact ⟨by simp [Rests, state, isLive], (endBooking_set s i k .released).only⟩
  · rename_i state
    split at due
    · rename_i past
      have moving : ¬ Rests s.now k := by simp [Rests, state, isLive, past]
      split at due <;> cases due
      · exact ⟨moving, (enterEnding_set s i k s.settings.overrunGrace).only⟩
      · exact ⟨moving, (endBooking_set s i k .ended).only⟩
    · cases due
  · rename_i state
    split at due <;> cases due
    exact ⟨by simp [Rests, state, isLive], (endBooking_set s i k .ended).only⟩
  · cases due

theorem dueOfScheduled_moves (due : s.dueOfScheduled = some t) :
    ∃ j b, s.bks.bookings.get j = some b ∧ ¬ Rests s.now b ∧ OnlyAt j s t := by
  unfold State.dueOfScheduled at due
  split at due
  · cases due
  · rename_i j b rest first
    obtain ⟨held, asked⟩ := mem_byStart.mp (first ▸ List.mem_cons_self : (j, b) ∈ s.byStart s.isDue)
    have state : b.state = .scheduled := by
      simp only [State.isDue, Bool.and_eq_true, decide_eq_true_eq] at asked
      exact asked.1.1
    refine ⟨j, b, held, by simp [Rests, state, isLive], ?_⟩
    split at due <;> cases due
    · exact (entering_set s none j b .pending).only.trans onlyAt_keyFlagCheck
    · exact onlyAt_beginBooking

/-- One due transition moves one booking, which is not at rest. -/
theorem dueOnce_moves (due : s.dueOnce = some t) : ∃ j b, s.bks.bookings.get j = some b ∧ ¬ Rests s.now b ∧ OnlyAt j s t := by
  unfold State.dueOnce at due
  split at due
  · rename_i j b current
    exact ⟨j, b, (current_some_iff.mp current).2, dueOfCurrent_moves due⟩
  · exact dueOfScheduled_moves due

theorem evaluateFor_keeps (n : Nat) (held : s.bks.bookings.get i = some k) (rests : Rests s.now k) :
    (evaluateFor n s).bks.bookings.get i = some k := by
  induction n generalizing s with
  | zero => exact held
  | succ n ih =>
    unfold evaluateFor
    split
    · rename_i u due
      obtain ⟨j, b, heldJ, moving, only⟩ := dueOnce_moves due
      have other : i ≠ j := fun same => by
        subst same
        cases held.symm.trans heldJ
        exact moving rests
      have clock : u.now = s.now := (scheduled_dueOnce due).now
      exact ih ((only i other).trans held) (by rw [clock]; exact rests)
    · exact held

theorem evaluate_keeps (held : s.bks.bookings.get i = some k) (rests : Rests s.now k) : s.evaluate.bks.bookings.get i = some k := by
  unfold State.evaluate
  split
  · exact evaluateFor_keeps 160 held rests
  · exact held

theorem scheduled_evaluate (s : State) : Scheduled s s.evaluate := (Scheduled.refl s).evaluate

/-! ## Evaluations of one transition -/

theorem evaluate_unset (unset : s.msc.clock ≠ .set) : s.evaluate = s := if_neg unset

theorem evaluateFor_still (n : Nat) (still : s.dueOnce = none) : evaluateFor n s = s := by
  cases n with
  | zero => rfl
  | succ n => rw [evaluateFor, still]

theorem evaluateFor_due (n : Nat) (due : s.dueOnce = some t) : evaluateFor (n + 1) s = evaluateFor n t := by
  rw [evaluateFor, due]

theorem evaluate_due (set : s.msc.clock = .set) (due : s.dueOnce = some t) : s.evaluate = evaluateFor 159 t :=
  (if_pos set).trans (evaluateFor_due 159 due)

theorem evaluate_once (set : s.msc.clock = .set) (due : s.dueOnce = some t) (still : t.dueOnce = none) : s.evaluate = t :=
  (evaluate_due set due).trans (evaluateFor_still 159 still)

theorem dueOnce_current (current : s.current = some (i, k)) : s.dueOnce = s.dueOfCurrent i k := by
  rw [State.dueOnce, current]

theorem dueOfCurrent_pending (pending : k.state = .pending) : s.dueOfCurrent i k =
    if instantOf k.start ≤ s.now ∧ s.now < instantOf k.stop then some (s.beginBooking i k) else none := by
  rw [State.dueOfCurrent, pending]

theorem dueOfCurrent_awaiting (awaiting : k.state = .awaiting) : s.dueOfCurrent i k =
    if s.releaseInstant k ≤ s.now then some (s.endBooking i k .released) else none := by
  rw [State.dueOfCurrent, awaiting]

theorem dueOfCurrent_active (active : k.state = .active) : s.dueOfCurrent i k =
    if instantOf k.stop ≤ s.now then
      (if s.now < s.graceDeadline i k s.settings.overrunGrace then some (s.enterEnding i k s.settings.overrunGrace) else some (s.endBooking i k .ended))
    else none := by
  rw [State.dueOfCurrent, active]

theorem dueOfCurrent_ending (ending : k.state = .ending) : s.dueOfCurrent i k =
    if s.graceDeadline i k s.graceInForce ≤ s.now then some (s.endBooking i k .ended) else none := by
  rw [State.dueOfCurrent, ending]

/-- After a transition to a meeting before its end nothing more is due. -/
theorem still_active {b : Booking} (set : BookingSet i b s t) (free : s.current = none ∨ s.currentSlot = some i) (active : b.state = .active)
    (early : t.now < instantOf b.stop) : t.dueOnce = none := by
  rw [dueOnce_current (set.current free (by rw [active]; rfl)), dueOfCurrent_active active]
  exact if_neg (Nat.not_le.mpr early)

theorem still_pending {b : Booking} (set : BookingSet i b s t) (free : s.current = none ∨ s.currentSlot = some i) (pending : b.state = .pending)
    (early : t.now < instantOf b.start) : t.dueOnce = none := by
  rw [dueOnce_current (set.current free (by rw [pending]; rfl)), dueOfCurrent_pending pending]
  exact if_neg fun ⟨begun, _⟩ => Nat.not_le.mpr early begun

theorem still_awaiting {b : Booking} (set : BookingSet i b s t) (free : s.current = none ∨ s.currentSlot = some i) (awaiting : b.state = .awaiting)
    (early : t.now < t.releaseInstant b) : t.dueOnce = none := by
  rw [dueOnce_current (set.current free (by rw [awaiting]; rfl)), dueOfCurrent_awaiting awaiting]
  exact if_neg (Nat.not_le.mpr early)

/-- The minute a booking enters AWAITING it is not yet released, when it has a no-show time and has not ended (R144). -/
theorem not_released (since : s.msc.awaitingSince = some s.msc.minuteInstant) (timed : k.noShow ≠ 0) (early : s.now < instantOf k.stop) :
    s.now < s.releaseInstant k := by
  have deadline : s.noShowDeadline k = max (instantOf k.start + 60 * k.noShow) (s.msc.minuteInstant + 60 * k.noShow) := by
    rw [State.noShowDeadline, since]
    rfl
  rw [State.releaseInstant, deadline]
  simp only [State.now, Msc.minuteInstant, instant] at early ⊢
  omega

/-! ## A booking that alone is due (R140, R141) -/

/-- A SCHEDULED booking with none current and no other at its lead. -/
def AloneDue (s : State) (i : BSlot) (k : Booking) : Prop :=
  s.current = none ∧ s.bks.bookings.get i = some k ∧ k.state = .scheduled ∧
    ∀ j b, j ≠ i → s.bks.bookings.get j = some b → b.state = .scheduled → s.now < leadInstant s.settings.preStartLead b

theorem dueOfScheduled_first {rest : List (BSlot × Booking)} (first : s.byStart s.isDue = (i, k) :: rest) : s.dueOfScheduled =
    if s.now < instantOf k.start then some (s.enterPending i k) else some (s.beginBooking i k) := by
  rw [State.dueOfScheduled, first]

theorem dueOnce_alone (alone : AloneDue s i k) (lead : leadInstant s.settings.preStartLead k ≤ s.now) (early : s.now < instantOf k.stop) :
    s.dueOnce = if s.now < instantOf k.start then some (s.enterPending i k) else some (s.beginBooking i k) := by
  obtain ⟨free, held, state, others⟩ := alone
  have only : s.byStart s.isDue = [(i, k)] := byStart_only held (by simp [State.isDue, state, lead, early]) fun j b other heldB => by
    rw [State.isDue, Bool.and_eq_false_iff, Bool.and_eq_false_iff]
    by_cases scheduled : b.state = .scheduled
    · exact .inl (.inr (decide_eq_false (Nat.not_le.mpr (others j b other heldB scheduled))))
    · exact .inl (.inl (decide_eq_false scheduled))
  rw [State.dueOnce, free]
  exact dueOfScheduled_first only

/-- What the check of the flags makes of a booking that has just become PENDING (R140, R143). -/
theorem enterPending_set (s : State) (i : BSlot) (k : Booking) :
    ∃ had, BookingSet i { k with state := .pending, checkedIn := had } s (s.enterPending i k) := by
  have entered := entering_set s none i k .pending
  rw [enterPending_eq, State.keyFlagCheck, entered.here]
  dsimp only
  split
  · cases fresh : k.checkedIn with
    | true =>
      have stays : ∀ u : State, u.checkInNow i (s.msc.entered .pending k) = u := fun u => by
        unfold State.checkInNow
        exact if_pos fresh
      rw [stays]
      exact ⟨k.checkedIn, entered⟩
    | false =>
      rw [checkInNow_pending (k := s.msc.entered .pending k) rfl fresh]
      exact ⟨true, entered.again (setBooking_get i _ _)⟩
  · exact ⟨k.checkedIn, entered⟩

theorem evaluate_enterPending (set : s.msc.clock = .set) (alone : AloneDue s i k) (lead : leadInstant s.settings.preStartLead k ≤ s.now)
    (early : s.now < instantOf k.start) (ordered : instantOf k.start < instantOf k.stop) : s.evaluate = s.enterPending i k := by
  obtain ⟨had, entered⟩ := enterPending_set s i k
  refine evaluate_once set ((dueOnce_alone alone lead (early.trans ordered)).trans (if_pos early)) (still_pending entered (.inl alone.1) rfl ?_)
  rw [((Scheduled.refl s).enterPending i k).now]
  exact early

theorem enterPending_clear (noFlag : ∀ x, (s.tbc.seats.get x).flag.mic = false) : s.enterPending i k = s.entering none i k .pending :=
  keyFlagCheck_clear (s := s.entering none i k .pending) (fun x => by rw [entering_tbc, noFlag x]) i

/-- The state in which the flags found at an entry check a booking in: they are consumed. -/
theorem keyFlagCheck_entered {since : Option Nat} {new : BState} (flagged : ∃ x, (s.tbc.seats.get x).flag.mic = true ∧ qualifies k x = true) :
    (s.entering since i k new).keyFlagCheck i =
      ((s.entering since i k new).clearKeyFlags (qualifies k) [.mic]).checkInNow i (s.msc.entered new k) := by
  obtain ⟨x, flag, counts⟩ := flagged
  exact keyFlagCheck_flagged (entering_set s since i k new).here ⟨x, by rw [entering_tbc, flag], counts⟩

theorem enterPending_flagged (flagged : ∃ x, (s.tbc.seats.get x).flag.mic = true ∧ qualifies k x = true) (fresh : k.checkedIn = false) :
    s.enterPending i k = (((s.entering none i k .pending).clearKeyFlags (qualifies k) [.mic]).setBooking i
      (some { k with state := .pending, checkedIn := true })).notify .booking (checkedInPayload i k.calRef) :=
  (keyFlagCheck_entered flagged).trans (checkInNow_pending rfl fresh)

/-! ## A booking that begins (R141) -/

/-- A booking at its start: SCHEDULED and alone due, or PENDING and current. -/
theorem dueOnce_begin (begins : AloneDue s i k ∨ (s.current = some (i, k) ∧ k.state = .pending)) (begun : instantOf k.start ≤ s.now)
    (early : s.now < instantOf k.stop) : s.dueOnce = some (s.beginBooking i k) := by
  obtain alone | ⟨current, pending⟩ := begins
  · have lead : leadInstant s.settings.preStartLead k ≤ s.now := (Nat.sub_le _ _).trans begun
    exact (dueOnce_alone alone lead early).trans (if_neg (Nat.not_lt.mpr begun))
  · rw [dueOnce_current current, dueOfCurrent_pending pending]
    exact if_pos ⟨begun, early⟩

theorem begins_free (begins : AloneDue s i k ∨ (s.current = some (i, k) ∧ k.state = .pending)) : s.current = none ∨ s.currentSlot = some i :=
  begins.imp (·.1) fun h => (current_some_iff.mp h.1).1

theorem gathered_iff : gathered k = true ↔ k.noShow = 0 ∨ k.checkedIn = true := by simp [gathered]

theorem begin_wakes : .wakeRequest .booking ∈ (s.beginBooking i k).flight := by
  cases had : gathered k with
  | true =>
    rw [beginBooking_gathered had]
    exact ((Scheduled.refl (s.emit [.wakeRequest .booking])).activate i k id).flight.subset (List.mem_append_right _ (.head _))
  | false =>
    rw [beginBooking_missing had]
    exact ((Scheduled.refl (s.entering _ i k .awaiting)).keyFlagCheck i).flight.subset (entering_wakes s _ i k .awaiting).1

theorem activate_clears (s : State) (i : BSlot) (k : Booking) (edit : Booking → Booking) :
    .keyFlagClearing false ∈ (s.activate i k edit).flight ∧ .sessionLampReport true ∈ (s.activate i k edit).flight := by
  refine ⟨?_, List.mem_append_right _ (.head _)⟩
  exact List.mem_append_left _ (List.mem_append_left _ (List.mem_append_right _ (.tail _ (.head _))))

/-- The flags that bring an AWAITING booking its check-in make it ACTIVE in the same step (R142, R143). -/
theorem enterAwaiting_flagged (flagged : ∃ x, (s.tbc.seats.get x).flag.mic = true ∧ qualifies k x = true) :
    s.enterAwaiting i k = ((s.entering (some s.msc.minuteInstant) i k .awaiting).clearKeyFlags (qualifies k) [.mic]).activate i
      { k with state := .awaiting } fun b => { b with checkedIn := true } :=
  (keyFlagCheck_entered flagged).trans (checkInNow_awaiting rfl)

theorem enterAwaiting_clear (noFlag : ∀ x, (s.tbc.seats.get x).flag.mic = false) :
    s.enterAwaiting i k = s.entering (some s.msc.minuteInstant) i k .awaiting :=
  keyFlagCheck_clear (s := s.entering (some s.msc.minuteInstant) i k .awaiting) (fun x => by rw [entering_tbc, noFlag x]) i

theorem entering_minute (s : State) (i : BSlot) (k : Booking) : (s.entering (some s.msc.minuteInstant) i k .awaiting).msc.awaitingSince =
    some (s.entering (some s.msc.minuteInstant) i k .awaiting).msc.minuteInstant := by
  obtain ⟨-, day, second⟩ := (scheduled_entering s (some s.msc.minuteInstant) i k .awaiting).clock
  have minute : (s.entering (some s.msc.minuteInstant) i k .awaiting).msc.minuteInstant = s.msc.minuteInstant := by
    rw [Msc.minuteInstant, day, second]
    rfl
  rw [entering_since, minute]

end

/-! ## The clock and the deadlines (R135 to R145) -/

section
variable {s : State} {i : BSlot} {k : Booking}

theorem exec_secondEvent (s : State) : exec .secondEvent s = .next (if s.msc.clock = .lost then s
    else if s.msc.atEnd then ({ s with msc := { s.msc with clock := .lost } } : State).tellClock
    else if ({ s with msc := s.msc.tick } : State).speechSecond.msc.second % 60 = 0 then ({ s with msc := s.msc.tick } : State).speechSecond.evaluate
    else ({ s with msc := s.msc.tick } : State).speechSecond) := rfl

/-- A second event moves the floor alone beside the clock. -/
theorem speechSecond_frame (s : State) : s.speechSecond = { s with flc := s.speechSecond.flc, flight := s.speechSecond.flight } := by
  unfold State.speechSecond
  dsimp only
  split
  · rw [State.floorEdit, floorChange_eq]
    rfl
  · rfl

/-- The clock one second on, with no more than the floor and the schedule moved. -/
theorem secondEvent_counts (known : s.msc.clock ≠ .lost) (more : s.msc.day < 32767 ∨ s.msc.second < 86399) :
    ∃ t, exec .secondEvent s = .next t ∧ Scheduled ({ s with msc := s.msc.tick } : State).speechSecond t := by
  have running : ¬ s.msc.atEnd = true := by
    simp only [Msc.atEnd, Bool.and_eq_true, decide_eq_true_eq]
    omega
  rw [exec_secondEvent, if_neg known, if_neg running]
  exact ⟨_, rfl, .ite (fun _ => scheduled_evaluate _) fun _ => .refl _⟩

theorem tick_spec (m : Msc) (inDay : m.second ≤ 86399) : m.tick.clock = m.clock ∧ m.tick.second ≤ 86399 ∧
    instant m.tick.day m.tick.second = instant m.day m.second + 1 := by
  unfold Msc.tick
  split
  · exact ⟨rfl, by dsimp only; omega, (Nat.add_assoc ..).symm⟩
  · refine ⟨rfl, Nat.zero_le _, ?_⟩
    simp only [instant]
    omega

theorem speechSecond_noSpeakers (silent : s.flc.speakers = []) : s.speechSecond = s := by
  unfold State.speechSecond
  exact if_neg (by simp [silent])

theorem exec_setClock (r : CmdRef) (day second : Nat) (s : State) : exec (.setClock r day second) s = .next (
    if 32767 < day ∨ 86399 < second then Answered (.setClock r day second) r .badArgument [] s
    else if s.pcu.room = .stopped then Answered (.setClock r day second) r .state [] s
    else ((({ s.taking (.setClock r day second) with msc := s.msc.setTo day second } : State).tellClock.catchUp false).reply r .ok)) := rfl

theorem exec_setClock_set {r : CmdRef} {day second : Nat} (dayIn : day ≤ 32767) (secondIn : second ≤ 86399) (runs : s.pcu.room = .running) :
    exec (.setClock r day second) s = .next
      ((({ s.taking (.setClock r day second) with msc := s.msc.setTo day second } : State).tellClock.catchUp false).reply r .ok) := by
  rw [exec_setClock, if_neg (by omega), if_neg (by simp [runs])]

theorem exec_noShowDeadline (s : State) : exec .noShowDeadline s =
    .next (if s.current.any (fun a => a.2.state = .awaiting && s.releaseInstant a.2 ≤ s.now) then s.evaluate else s) := rfl

theorem exec_graceDeadline (s : State) : exec .graceDeadline s =
    .next (if s.current.any (fun a => a.2.state = .ending && s.graceDeadline a.1 a.2 s.graceInForce ≤ s.now) then s.evaluate else s) := rfl

/-- An evaluation whose first transition ends a booking leaves it ended, whatever follows (R146). -/
theorem evaluate_ends {new : BState} (set : s.msc.clock = .set) (due : s.dueOnce = some (s.endBooking i k new)) (spent : isLive new = false) :
    TransitionTold s.evaluate i k k.state new ∧ s.evaluate.bks.bookings.get i = some (s.msc.entered new k) ∧ ScheduleFrame s s.evaluate := by
  have ended := (endBooking_set s i k new).here
  rw [evaluate_due set due]
  have later : Scheduled (s.endBooking i k new) (evaluateFor 159 (s.endBooking i k new)) := (Scheduled.refl _).evaluateFor 159
  exact ⟨(endBooking_told s i k new).later later.flight, evaluateFor_keeps 159 ended (.inl spent), (((Scheduled.refl s).endBooking i k new).trans later).frame⟩

theorem due_noShow (current : s.current = some (i, k)) (awaiting : k.state = .awaiting) (elapsed : s.releaseInstant k ≤ s.now) :
    s.dueOnce = some (s.endBooking i k .released) := by
  rw [dueOnce_current current, dueOfCurrent_awaiting awaiting, if_pos elapsed]

theorem due_grace (current : s.current = some (i, k)) (ending : k.state = .ending) (elapsed : s.graceDeadline i k s.graceInForce ≤ s.now) :
    s.dueOnce = some (s.endBooking i k .ended) := by
  rw [dueOnce_current current, dueOfCurrent_ending ending, if_pos elapsed]

/-! ## Where an evaluation ends (R139 to R145) -/

theorem setBooking_tbc (s : State) (i : BSlot) (v : Option Booking) : (s.setBooking i v).tbc = s.tbc := rfl

theorem activate_tbc (s : State) (i : BSlot) (k : Booking) (edit : Booking → Booking) : (s.activate i k edit).tbc = s.tbc := rfl

/-- The first statement of the entry to PENDING: what is told, and what becomes of the booking with and without flags. -/
theorem evaluate_lead (set : s.msc.clock = .set) (ordered : instantOf k.start < instantOf k.stop) (alone : AloneDue s i k)
    (lead : leadInstant s.settings.preStartLead k ≤ s.now) (early : s.now < instantOf k.start) :
    .wakeRequest .booking ∈ s.evaluate.flight ∧ .bookingCurrentReport true ∈ s.evaluate.flight ∧ TransitionTold s.evaluate i k .scheduled .pending ∧
    ((∀ x, (s.tbc.seats.get x).flag.mic = false) →
      s.evaluate.bks.bookings.get i = some { k with state := .pending } ∧ ScheduleFrame s s.evaluate) ∧
    ((∃ x, (s.tbc.seats.get x).flag.mic = true ∧ qualifies k x = true) → k.checkedIn = false →
      (s.evaluate.bks.bookings.get i = some { k with state := .pending, checkedIn := true } ∧ ScheduleFrame s s.evaluate) ∧
      (∀ x, qualifies k x = true → (s.evaluate.tbc.seats.get x).flag.mic = false) ∧
      .notice .booking (checkedInPayload i k.calRef) ∈ s.evaluate.flight) := by
  have entered := evaluate_enterPending set alone lead early ordered
  have later : (s.entering none i k .pending).flight <+: s.evaluate.flight := entered ▸ ((Scheduled.refl _).keyFlagCheck i).flight
  obtain ⟨wake, word⟩ := entering_wakes s none i k .pending
  have told := (entering_told s none i k .pending).later later
  rw [alone.2.2.1] at told
  have frame := (scheduled_evaluate s).frame
  refine ⟨later.subset wake, later.subset word, told, fun noFlag => ⟨?_, frame⟩, fun flagged fresh => ⟨⟨?_, frame⟩, fun x counts => ?_, ?_⟩⟩
  · rw [entered, enterPending_clear noFlag]
    exact (entering_set s none i k .pending).here
  · rw [entered, enterPending_flagged flagged fresh, State.notify_bks]
    exact (setBooking_get i _ _ i).trans (if_pos rfl)
  · rw [entered, enterPending_flagged flagged fresh, State.notify_tbc, setBooking_tbc]
    exact clearKeyFlags_cleared _ counts
  · rw [entered, enterPending_flagged flagged fresh, State.notify_flight]
    exact List.mem_append_right _ (.head _)

theorem evaluate_begins_gathered (set : s.msc.clock = .set) (begins : AloneDue s i k ∨ (s.current = some (i, k) ∧ k.state = .pending))
    (begun : instantOf k.start ≤ s.now) (early : s.now < instantOf k.stop) (had : k.noShow = 0 ∨ k.checkedIn = true) :
    s.evaluate = (s.emit [.wakeRequest .booking]).activate i k id := by
  have due := dueOnce_begin begins begun early
  rw [beginBooking_gathered (gathered_iff.mpr had)] at due
  refine evaluate_once set due (still_active (activate_set (s.emit _) i k id) (begins_free begins) rfl ?_)
  rw [((scheduled_emit s _).activate i k id).now]
  exact early

theorem evaluate_begins_awaiting (set : s.msc.clock = .set) (begins : AloneDue s i k ∨ (s.current = some (i, k) ∧ k.state = .pending))
    (begun : instantOf k.start ≤ s.now) (early : s.now < instantOf k.stop) (timed : k.noShow ≠ 0) (fresh : k.checkedIn = false)
    (noFlag : ∀ x, (s.tbc.seats.get x).flag.mic = false) : s.evaluate = s.entering (some s.msc.minuteInstant) i k .awaiting := by
  have due := dueOnce_begin begins begun early
  rw [beginBooking_missing (by simp [gathered, timed, fresh]), enterAwaiting_clear noFlag] at due
  have entered := entering_set s (some s.msc.minuteInstant) i k .awaiting
  refine evaluate_once set due (still_awaiting entered (begins_free begins) rfl ?_)
  refine not_released (entering_minute s i k) timed ?_
  rw [(scheduled_entering ..).now]
  exact early

theorem evaluate_begins_flagged (set : s.msc.clock = .set) (begins : AloneDue s i k ∨ (s.current = some (i, k) ∧ k.state = .pending))
    (begun : instantOf k.start ≤ s.now) (early : s.now < instantOf k.stop) (timed : k.noShow ≠ 0) (fresh : k.checkedIn = false)
    (flagged : ∃ x, (s.tbc.seats.get x).flag.mic = true ∧ qualifies k x = true) : s.evaluate =
      ((s.entering (some s.msc.minuteInstant) i k .awaiting).clearKeyFlags (qualifies k) [.mic]).activate i
        { k with state := .awaiting } fun b => { b with checkedIn := true } := by
  have due := dueOnce_begin begins begun early
  rw [beginBooking_missing (by simp [gathered, timed, fresh]), enterAwaiting_flagged flagged] at due
  have entered := entering_set s (some s.msc.minuteInstant) i k .awaiting
  have active := entered.again (activate_set ((s.entering (some s.msc.minuteInstant) i k .awaiting).clearKeyFlags (qualifies k) [.mic]) i
    { k with state := .awaiting } fun b => { b with checkedIn := true })
  refine evaluate_once set due (still_active active (begins_free begins) rfl ?_)
  rw [(((scheduled_entering ..).clearKeyFlags _ _).activate i _ _).now]
  exact early

/-- What a booking that begins comes to (R141, R143, R147). -/
theorem evaluate_begins (set : s.msc.clock = .set) (begins : AloneDue s i k ∨ (s.current = some (i, k) ∧ k.state = .pending))
    (begun : instantOf k.start ≤ s.now) (early : s.now < instantOf k.stop) :
    .wakeRequest .booking ∈ s.evaluate.flight ∧
    (k.noShow = 0 ∨ k.checkedIn = true → (s.evaluate.bks.bookings.get i = some { k with state := .active } ∧ ScheduleFrame s s.evaluate) ∧
      TransitionTold s.evaluate i k k.state .active ∧ .keyFlagClearing false ∈ s.evaluate.flight) ∧
    (k.noShow ≠ 0 → k.checkedIn = false → (∀ x, (s.tbc.seats.get x).flag.mic = false) →
      (s.evaluate.bks.bookings.get i = some { k with state := .awaiting } ∧ ScheduleFrame s s.evaluate) ∧
      TransitionTold s.evaluate i k k.state .awaiting ∧ s.evaluate.msc.awaitingSince = some (instant s.msc.day (s.msc.second / 60 * 60))) ∧
    (k.noShow ≠ 0 → k.checkedIn = false → (∃ x, (s.tbc.seats.get x).flag.mic = true ∧ qualifies k x = true) →
      (s.evaluate.bks.bookings.get i = some { k with state := .active, checkedIn := true } ∧ ScheduleFrame s s.evaluate) ∧
      (∀ x, qualifies k x = true → (s.evaluate.tbc.seats.get x).flag.mic = false) ∧
      TransitionTold s.evaluate i k k.state .awaiting ∧ TransitionTold s.evaluate i k .awaiting .active) := by
  have frame := (scheduled_evaluate s).frame
  refine ⟨?wake, fun had => ?gathered, fun timed fresh noFlag => ?awaiting, fun timed fresh flagged => ?flagged⟩
  case wake =>
    rw [evaluate_due set (dueOnce_begin begins begun early)]
    exact ((Scheduled.refl _).evaluateFor 159).flight.subset begin_wakes
  case gathered =>
    rw [evaluate_begins_gathered set begins begun early had] at frame ⊢
    exact ⟨⟨(activate_set (s.emit _) i k id).here, frame⟩, activate_told (s.emit _) i k id, (activate_clears (s.emit _) i k id).1⟩
  case awaiting =>
    rw [evaluate_begins_awaiting set begins begun early timed fresh noFlag] at frame ⊢
    exact ⟨⟨(entering_set s _ i k .awaiting).here, frame⟩, entering_told s _ i k .awaiting, entering_since s _ i k .awaiting⟩
  case flagged =>
    rw [evaluate_begins_flagged set begins begun early timed fresh flagged] at frame ⊢
    have later := ((Scheduled.refl ((s.entering (some s.msc.minuteInstant) i k .awaiting).clearKeyFlags (qualifies k) [.mic])).activate i
      { k with state := .awaiting } fun b => { b with checkedIn := true }).flight
    refine ⟨⟨(activate_set _ i _ _).here, frame⟩, fun x counts => ?_,
      (entering_told s _ i k .awaiting).later later, activate_told _ i { k with state := .awaiting } _⟩
    rw [activate_tbc]
    exact clearKeyFlags_cleared _ counts

theorem enterEnding_grace (s : State) (i : BSlot) (k : Booking) (grace : Nat) : (s.enterEnding i k grace).msc.graceHeld = some grace ∧
    .endingMarkReport true ∈ (s.enterEnding i k grace).flight := by
  refine ⟨?_, List.mem_append_right _ (.head _)⟩
  have held : (s.enterEnding i k grace).msc =
      (((s.remember none (some grace)).transition i k .ending id).refreshAgenda).msc := rfl
  rw [held, refreshAgenda_eq]
  rfl

/-- What a meeting at its end comes to (R145). -/
theorem evaluate_stops (set : s.msc.clock = .set) (current : s.current = some (i, k)) (active : k.state = .active) (elapsed : instantOf k.stop ≤ s.now) :
    (s.now < s.graceDeadline i k s.settings.overrunGrace →
      (s.evaluate.bks.bookings.get i = some { k with state := .ending } ∧ ScheduleFrame s s.evaluate) ∧ TransitionTold s.evaluate i k .active .ending ∧
        s.evaluate.msc.graceHeld = some s.settings.overrunGrace ∧ .endingMarkReport true ∈ s.evaluate.flight) ∧
    (s.graceDeadline i k s.settings.overrunGrace ≤ s.now → TransitionTold s.evaluate i k .active .ended ∧
      s.evaluate.bks.bookings.get i = some { k with state := .ended, actualEnd := some (s.msc.day, s.msc.second) } ∧ ScheduleFrame s s.evaluate) := by
  obtain ⟨slot, held⟩ := current_some_iff.mp current
  have due := (dueOnce_current current).trans ((dueOfCurrent_active active).trans (if_pos elapsed))
  refine ⟨fun within => ?_, fun past => ?_⟩
  · have set' := enterEnding_set s i k s.settings.overrunGrace
    have entered := (Scheduled.refl s).enterEnding i k s.settings.overrunGrace
    obtain ⟨grace, mark⟩ := enterEnding_grace s i k s.settings.overrunGrace
    have still : (s.enterEnding i k s.settings.overrunGrace).dueOnce = none := by
      rw [dueOnce_current (set'.current (.inr slot) rfl), dueOfCurrent_ending rfl, State.graceInForce, grace, entered.now]
      refine if_neg (Nat.not_le.mpr ?_)
      rw [graceDeadline_congr (b := { k with state := .ending }) set' held (by rw [active]; rfl) rfl rfl]
      exact within
    rw [evaluate_once set (due.trans (if_pos within)) still]
    exact ⟨⟨set'.here, entered.frame⟩, active ▸ enterEnding_told s i k _, grace, mark⟩
  · have ends := evaluate_ends set (due.trans (if_neg (Nat.not_lt.mpr past))) rfl
    rw [active] at ends
    exact ends

end

/-- Settles O42. -/
theorem clockAndDeadlines : Obligations.ClockAndDeadlines := by
  intro r day second i k s
  refine ⟨fun known more inDay => ?counts, fun known lastDay lastSecond => ?lost, fun lost => ?stays, fun dayIn secondIn runs => ?setClock,
    fun set current awaiting elapsed => ?noShow, fun set current ending elapsed => ?grace, fun free => ?free, fun known inDay minute silent => ?minute,
    evaluate_unset, fun set ordered => ⟨evaluate_lead set ordered, evaluate_begins set, evaluate_stops set⟩⟩
  case counts =>
    obtain ⟨t, run, moved⟩ := secondEvent_counts known more
    obtain ⟨clock, second, next⟩ := tick_spec s.msc inDay
    obtain ⟨clockSame, daySame, secondSame⟩ := moved.clock
    have ticked : ({ s with msc := s.msc.tick } : State).speechSecond.msc = s.msc.tick := by rw [speechSecond_frame]
    have frame := speechSecond_frame { s with msc := s.msc.tick }
    have scheduled := moved.frame
    rw [ticked] at clockSame daySame secondSame
    refine ⟨t, run, clockSame.trans clock, ?_, ?_, ?_, ?_, ?_, ?_, ?_, secondSame ▸ second, by rw [daySame, secondSame, next]⟩
    all_goals rw [scheduled, frame]
  case lost =>
    have atEnd : s.msc.atEnd = true := by simp [Msc.atEnd, lastDay, lastSecond]
    rw [exec_secondEvent, if_neg known, if_pos atEnd]
    rfl
  case stays => rw [exec_secondEvent, if_pos lost]
  case setClock =>
    have moved := (Scheduled.refl (({ s.taking (.setClock r day second) with msc := s.msc.setTo day second } : State).tellClock)).catchUp false
    obtain ⟨clock, daySet, secondSet⟩ := moved.clock
    have frame : ScheduleFrame s _ := ScheduleFrame.trans (t := ({ s.taking (.setClock r day second) with msc := s.msc.setTo day second } : State).tellClock)
      rfl moved.frame
    have sent : (s.taking (.setClock r day second)).flight <+: ({ s.taking (.setClock r day second) with msc := s.msc.setTo day second } : State).tellClock.flight :=
      List.prefix_append _ _
    exact ⟨_, exec_setClock_set dayIn secondIn runs, frame.reply r .ok [], clock, daySet, secondSet,
      endsWith_reply_of_prefix (sent.trans moved.flight) r .ok []⟩
  case noShow =>
    have ends := evaluate_ends set (due_noShow current awaiting elapsed) rfl
    rw [awaiting] at ends
    obtain ⟨told, held, frame⟩ := ends
    refine ⟨_, (exec_noShowDeadline s).trans (next_congr (if_pos ?_)), frame, told, held⟩
    simp [current, awaiting, elapsed]
  case grace =>
    have ends := evaluate_ends set (due_grace current ending elapsed) rfl
    rw [ending] at ends
    obtain ⟨told, held, frame⟩ := ends
    refine ⟨_, (exec_graceDeadline s).trans (next_congr (if_pos ?_)), frame, told, held⟩
    simp [current, ending, elapsed]
  case free =>
    rw [exec_noShowDeadline, exec_graceDeadline, free]
    exact ⟨rfl, rfl⟩
  case minute =>
    have running : ¬ s.msc.atEnd = true := by
      simp only [Msc.atEnd, Bool.and_eq_true, decide_eq_true_eq]
      omega
    have ticked : s.msc.tick = { s.msc with second := s.msc.second + 1 } := if_pos (by omega)
    have quiet : ({ s with msc := s.msc.tick } : State).speechSecond = { s with msc := s.msc.tick } := speechSecond_noSpeakers silent
    rw [exec_secondEvent, if_neg known, if_neg running, quiet, ticked]
    exact next_congr (if_pos minute)

end Sys2Proof.Machine
end

section
/-! PROOF. Check-in (R142, R143), and the ends, moves and settings of meetings (R149 to R155). -/

namespace Sys2Proof.Machine

open Sys2Proof

section
variable {s t : State} {i : BSlot} {k : Booking}

/-! ## What an activation sends (R147) -/

/-- The state in which an activation is told: the booking ACTIVE, the check-in memory forgotten. -/
def State.activating (s : State) (i : BSlot) (k : Booking) (edit : Booking → Booking) : State :=
  (s.remember none none).transition i k .active edit

theorem activate_sends (s : State) (i : BSlot) (k : Booking) (edit : Booking → Booking) : (s.activate i k edit).flight = s.flight ++
    [.notice .booking (transitionPayload i k.calRef k.state .active),
      .activationReport ⟨(edit k).plan, (edit k).mode, (edit k).limit, s.settings.lockPolicy, (s.activating i k edit).seating⟩,
      .keyFlagClearing false, .activationAtScr false (s.activating i k edit).agenda, .sessionLampReport true, .bookingCurrentReport true] := by
  have sent : (s.activate i k edit).flight = (((s.flight ++ [.notice .booking (transitionPayload i k.calRef k.state .active)]) ++
      [.activationReport ⟨(edit k).plan, (edit k).mode, (edit k).limit, s.settings.lockPolicy, (s.activating i k edit).seating⟩, .keyFlagClearing false]) ++
      [.activationAtScr false (s.activating i k edit).agenda]) ++ [.sessionLampReport true, .bookingCurrentReport true] := rfl
  rw [sent]
  simp

/-- A meeting is seated by the plan's list, unless the policy is FREE or the list empty (R149). -/
theorem seating_active {b : Booking} (current : s.current = some (i, b)) (active : b.state = .active) : s.seating =
    if s.settings.lockPolicy = .free ∨ b.plan.attendees = [] then .openRoom else .meeting := by
  rw [State.seating, current]
  cases s.settings.lockPolicy with
  | free => simp [seatingOf]
  | locked => simp [seatingOf, active, inMeeting]

theorem activating_seating (slot : s.currentSlot = some i) (edit : Booking → Booking) : (s.activating i k edit).seating =
    if s.settings.lockPolicy = .free ∨ (edit k).plan.attendees = [] then .openRoom else .meeting :=
  seating_active (b := s.msc.entered .active (edit k))
    (BookingSet.current (s := s) (transition_set (s.remember none none) i k .active edit) (.inr slot) rfl) rfl

/-! ## The sources (R142, R143) -/

theorem exec_occupancyEdge (current : s.current = some (i, k)) (l : Line) (e : LineEdge) :
    exec (.occupancyEdge l e) s = .next ((s.taking (.occupancyEdge l e)).checkInNow i k) := by
  have run : exec (.occupancyEdge l e) s = execOccupancyEdge l e s := rfl
  have seen : (s.taking (.occupancyEdge l e)).current = some (i, k) := current
  rw [run, execOccupancyEdge]
  simp only [seen]

theorem exec_checkIn (current : s.current = some (i, k)) (expects : k.state = .pending ∨ k.state = .awaiting) (r : CmdRef) :
    exec (.checkIn r) s = .next (((s.taking (.checkIn r)).checkInNow i k).await r
      (s.bks.waitsIf (((s.taking (.checkIn r)).checkInNow i k).bks.bookings.get i ≠ s.bks.bookings.get i) (.booking i))
      (u8 i.val ++ ((s.taking (.checkIn r)).checkInNow i k).stateOf i)) := by
  have run : exec (.checkIn r) s = execCheckIn r s := rfl
  have seen : (s.taking (.checkIn r)).current = some (i, k) := current
  rw [run, execCheckIn]
  simp only [seen, if_pos expects, State.taking_bks]
  rfl

/-- A check-in that changed the booking waits for its write and tells the state. -/
theorem exec_checkIn_changed (current : s.current = some (i, k)) (expects : k.state = .pending ∨ k.state = .awaiting) (r : CmdRef) {b : Booking}
    (set : ((s.taking (.checkIn r)).checkInNow i k).bks.bookings.get i = some b) (differs : b ≠ k) :
    exec (.checkIn r) s = .next { (s.taking (.checkIn r)).checkInNow i k with
      bks := { ((s.taking (.checkIn r)).checkInNow i k).bks with
        waiters := ((s.taking (.checkIn r)).checkInNow i k).bks.waiters ++
          [⟨r, .ok, u8 i.val ++ u8 b.state.ctorIdx, [s.bks.waitOn (.booking i)]⟩] } } := by
  have held := (current_some_iff.mp current).2
  have changed : ((s.taking (.checkIn r)).checkInNow i k).bks.bookings.get i ≠ s.bks.bookings.get i := by
    rw [set, held]
    exact fun same => differs (Option.some.inj same)
  have waits : s.bks.waitsIf (((s.taking (.checkIn r)).checkInNow i k).bks.bookings.get i ≠ s.bks.bookings.get i) (.booking i) =
      [s.bks.waitOn (.booking i)] := if_pos (decide_eq_true changed)
  have state : ((s.taking (.checkIn r)).checkInNow i k).stateOf i = u8 b.state.ctorIdx := by
    rw [State.stateOf, set]
    rfl
  rw [exec_checkIn current expects, waits, state, await_cons]

/-- A MIC flag counts while the booking waits for its check-in (R143). -/
def flagCounts (k : Booking) (x : Seat) (s : State) : Prop :=
  ((k.state = .pending ∧ k.checkedIn = false) ∨ k.state = .awaiting) ∧ qualifies k x = true ∧ (s.tbc.seats.get x).flag.mic = true

theorem exec_micFlagReport (current : s.current = some (i, k)) (x : Seat) : (flagCounts k x s → exec (.micFlagReport x) s =
      .next (((s.taking (.micFlagReport x)).clearKeyFlags (fun y => y = x) [.mic]).checkInNow i k)) ∧
    (¬ flagCounts k x s → exec (.micFlagReport x) s = .next (Taken (.micFlagReport x) s)) := by
  have run : exec (.micFlagReport x) s = execMicFlagReport x s := rfl
  have seen : (s.taking (.micFlagReport x)).current = some (i, k) := current
  rw [run, execMicFlagReport]
  simp only [seen]
  exact ⟨fun counts => next_congr (if_pos counts), fun fails => next_congr (if_neg fails)⟩

theorem checkInNow_pending_set (pending : k.state = .pending) (fresh : k.checkedIn = false) :
    (s.checkInNow i k).bks.bookings.get i = some { k with checkedIn := true } := by
  rw [checkInNow_pending pending fresh]
  exact (setBooking_get i _ _ i).trans (if_pos rfl)

theorem checkInNow_awaiting_set (awaiting : k.state = .awaiting) :
    (s.checkInNow i k).bks.bookings.get i = some { k with state := .active, checkedIn := true } := by
  rw [checkInNow_awaiting awaiting]
  exact (activate_set s i k _).here

theorem checkInNow_waiters (s : State) (i : BSlot) (k : Booking) : (s.checkInNow i k).bks.waiters = s.bks.waiters := by
  rw [((Scheduled.refl s).checkInNow i k).store]

theorem checkInNow_awaiting_told (awaiting : k.state = .awaiting) : TransitionTold (s.checkInNow i k) i k .awaiting .active := by
  rw [checkInNow_awaiting awaiting, ← awaiting]
  exact activate_told s i k _

theorem checkInNow_tbc (s : State) (i : BSlot) (k : Booking) : (s.checkInNow i k).tbc = s.tbc := by
  unfold State.checkInNow
  split
  · split <;> rfl
  · rfl
  · rfl

theorem taking_frame (s : State) (c : Instr) : ScheduleFrame s (s.taking c) := rfl

/-- A source checks a PENDING booking in (R142). -/
theorem checkIn_pending (pending : k.state = .pending) (fresh : k.checkedIn = false) {c : Instr} (u : State) (taken : u.flight = s.flight.erase c) :
    Sent c s (u.checkInNow i k) [.notice .booking (checkedInPayload i k.calRef)] ∧ (u.checkInNow i k).msc = u.msc := by
  rw [checkInNow_pending pending fresh]
  exact ⟨congrArg (· ++ [Instr.notice .booking (checkedInPayload i k.calRef)]) taken, rfl⟩

/-- A source makes an AWAITING booking ACTIVE, with the activation sent to every block (R142, R147). -/
theorem checkIn_awaiting (awaiting : k.state = .awaiting) {c : Instr} (u : State) (taken : u.flight = s.flight.erase c) (slot : u.currentSlot = some i)
    (policy : u.settings.lockPolicy = s.settings.lockPolicy) : SentSome c s (u.checkInNow i k) fun out =>
      .keyFlagClearing false ∈ out ∧ (∃ agenda, .activationAtScr false agenda ∈ out) ∧ .sessionLampReport true ∈ out ∧ .bookingCurrentReport true ∈ out ∧
      .activationReport ⟨k.plan, k.mode, k.limit, s.settings.lockPolicy,
        if s.settings.lockPolicy = .free ∨ k.plan.attendees = [] then .openRoom else .meeting⟩ ∈ out := by
  rw [checkInNow_awaiting awaiting]
  refine ⟨_, (activate_sends u i k _).trans (congrArg (· ++ _) taken), ?_⟩
  rw [activating_seating slot, policy]
  simp

end

/-- Settles O43. -/
theorem checkInSources : Obligations.CheckInSources := by
  intro r x l e i k s current
  obtain ⟨slot, held⟩ := current_some_iff.mp current
  refine ⟨fun pending fresh => ⟨?occupancy, ?command, fun counts flag => ?flag⟩, fun awaiting => ⟨?occupancyA, fun counts flag => ?flagA, ?commandA⟩,
    fun fails => (exec_micFlagReport current x).2 fun ⟨_, counts, flag⟩ => ?none⟩
  case occupancy =>
    obtain ⟨sent, msc⟩ := checkIn_pending (i := i) (s := s) pending fresh (s.taking (.occupancyEdge l e)) rfl
    exact ⟨_, exec_occupancyEdge current l e, (taking_frame s _).trans ((Scheduled.refl _).checkInNow i k).frame, checkInNow_tbc _ i k, msc,
      checkInNow_pending_set pending fresh, sent⟩
  case command =>
    obtain ⟨sent, msc⟩ := checkIn_pending (i := i) (s := s) pending fresh (s.taking (.checkIn r)) rfl
    have set := checkInNow_pending_set (s := s.taking (.checkIn r)) (i := i) pending fresh
    have run := exec_checkIn_changed current (.inl pending) r set fun same => by
      have had := congrArg Booking.checkedIn same
      rw [fresh] at had
      cases had
    have waiters := checkInNow_waiters (s.taking (.checkIn r)) i k
    have frame := (taking_frame s (.checkIn r)).trans ((Scheduled.refl _).checkInNow i k).frame
    have tbc := checkInNow_tbc (s.taking (.checkIn r)) i k
    generalize (s.taking (.checkIn r)).checkInNow i k = u at *
    dsimp only at run
    rw [pending] at run
    exact ⟨_, run, frame.trans rfl, tbc, msc, set, congrArg (· ++ _) waiters, sent⟩
  case flag =>
    obtain ⟨sent, -⟩ := checkIn_pending (i := i) (s := s) pending fresh
      ((s.taking (.micFlagReport x)).clearKeyFlags (fun y => y = x) [.mic]) rfl
    have frame := (taking_frame s (.micFlagReport x)).trans (((Scheduled.refl _).clearKeyFlags (fun y => y = x) [.mic]).checkInNow i k).frame
    refine ⟨_, (exec_micFlagReport current x).1 ⟨.inl ⟨pending, fresh⟩, counts, flag⟩, frame, checkInNow_pending_set pending fresh, ?_, fun y other => ?_, sent⟩
    · rw [checkInNow_tbc]
      exact clearKeyFlags_cleared _ (decide_eq_true rfl)
    · rw [checkInNow_tbc, clearKeyFlags_mic, if_neg (by simpa using other)]
      rfl
  case occupancyA =>
    exact ⟨_, exec_occupancyEdge current l e, (taking_frame s _).trans ((Scheduled.refl _).checkInNow i k).frame, checkInNow_awaiting_told awaiting,
      checkInNow_awaiting_set awaiting, checkIn_awaiting awaiting (s.taking (.occupancyEdge l e)) rfl slot rfl⟩
  case flagA =>
    obtain ⟨out, sent, cleared, -, lamp, -⟩ := checkIn_awaiting (s := s) awaiting
      ((s.taking (.micFlagReport x)).clearKeyFlags (fun y => y = x) [.mic]) rfl slot rfl
    have frame := (taking_frame s (.micFlagReport x)).trans (((Scheduled.refl _).clearKeyFlags (fun y => y = x) [.mic]).checkInNow i k).frame
    refine ⟨_, (exec_micFlagReport current x).1 ⟨.inr awaiting, counts, flag⟩, frame, checkInNow_awaiting_told awaiting, checkInNow_awaiting_set awaiting,
      ?_, fun y other => ?_, out, sent, cleared, lamp⟩
    · rw [checkInNow_tbc]
      exact clearKeyFlags_cleared _ (decide_eq_true rfl)
    · rw [checkInNow_tbc, clearKeyFlags_mic, if_neg (by simpa using other)]
      rfl
  case commandA =>
    have set := checkInNow_awaiting_set (s := s.taking (.checkIn r)) (i := i) awaiting
    have run := exec_checkIn_changed current (.inr awaiting) r set fun same => by
      have state := congrArg Booking.state same
      rw [awaiting] at state
      cases state
    have waiters := checkInNow_waiters (s.taking (.checkIn r)) i k
    have frame := (taking_frame s (.checkIn r)).trans ((Scheduled.refl _).checkInNow i k).frame
    have told := checkInNow_awaiting_told (s := s.taking (.checkIn r)) (i := i) awaiting
    generalize (s.taking (.checkIn r)).checkInNow i k = u at *
    exact ⟨_, run, frame.trans rfl, told, set, congrArg (· ++ _) waiters⟩
  case none =>
    obtain uncounted | clear := fails
    · rw [uncounted] at counts
      cases counts
    · rw [clear] at flag
      cases flag

section
variable {s t : State} {i : BSlot} {k : Booking}

/-! ## END-NOW and EXTEND (R151, R152) -/

/-- A command that waits, or completes at once, moves no booking and no clock. -/
theorem await_spec (s : State) (r : CmdRef) (waits : List WriteWait) (p : List Byte) : ScheduleFrame s (s.await r waits p) ∧
    (s.await r waits p).bks.bookings = s.bks.bookings ∧ (s.await r waits p).msc = s.msc ∧ s.flight <+: (s.await r waits p).flight := by
  unfold State.await
  split
  · exact ⟨rfl, rfl, rfl, List.prefix_append ..⟩
  · exact ⟨rfl, rfl, rfl, List.prefix_refl _⟩

theorem endingEffects_sends (s : State) : .sessionLampReport false ∈ s.endingEffects.flight ∧
    .endingReport s.settings.lockPolicy (s.clearKeyFlags (fun _ => true) [.mic]).seating ∈ s.endingEffects.flight :=
  ⟨List.mem_append_right _ (.head _), List.mem_append_left _ (List.mem_append_left _ (List.mem_append_right _ (.head _)))⟩

theorem endBooking_sends (s : State) (i : BSlot) (k : Booking) (new : BState) : .sessionLampReport false ∈ (s.endBooking i k new).flight ∧
    ∃ seating, .endingReport s.settings.lockPolicy seating ∈ (s.endBooking i k new).flight := by
  unfold State.endBooking
  split
  · exact ⟨(endingEffects_sends _).1, _, (endingEffects_sends ((s.remember none none).transition i k new id)).2⟩
  · exact ⟨(endingEffects_sends _).1, _, (endingEffects_sends (s.transition i k new id)).2⟩

/-- The state in which an ended booking's command waits for the write, before the evaluation (R152). -/
def State.endedNow (s : State) (r : CmdRef) (i : BSlot) (k : Booking) (new : BState) : State :=
  (s.endBooking i k new).await r [s.bks.waitOn (.booking i)]

theorem exec_endNow (held : s.bks.bookings.get i = some k) (r : CmdRef) : exec (.endNow r (some i)) s = .next (
    if inMeeting k.state then ((s.taking (.endNow r (some i))).endedNow r i k .ended).evaluate
    else if k.state = .awaiting then ((s.taking (.endNow r (some i))).endedNow r i k .released).evaluate
    else Answered (.endNow r (some i)) r .state [] s) := by
  have run : exec (.endNow r (some i)) s = execEndNow r (some i) s := rfl
  rw [run, execEndNow]
  simp only [State.taking_bks, held]
  rfl

theorem endedNow_spec (s : State) (r : CmdRef) (i : BSlot) (k : Booking) {new : BState} (spent : isLive new = false) :
    ScheduleFrame s (s.endedNow r i k new).evaluate ∧ TransitionTold (s.endedNow r i k new).evaluate i k k.state new ∧
      (s.endedNow r i k new).evaluate.bks.bookings.get i = some (s.msc.entered new k) ∧
      (s.endedNow r i k new).evaluate.bks.waiters = s.bks.waiters ++ [⟨r, .ok, [], [s.bks.waitOn (.booking i)]⟩] ∧
      .sessionLampReport false ∈ (s.endedNow r i k new).evaluate.flight ∧
      ∃ seating, .endingReport s.settings.lockPolicy seating ∈ (s.endedNow r i k new).evaluate.flight := by
  have ended := (Scheduled.refl s).endBooking i k new
  have set := endBooking_set s i k new
  have told := endBooking_told s i k new
  obtain ⟨lamp, seating, word⟩ := endBooking_sends s i k new
  have now : s.endedNow r i k new = { s.endBooking i k new with bks := { (s.endBooking i k new).bks with
      waiters := (s.endBooking i k new).bks.waiters ++ [⟨r, .ok, [], [s.bks.waitOn (.booking i)]⟩] } } := await_cons ..
  have waiters : (s.endBooking i k new).bks.waiters = s.bks.waiters := by rw [ended.store]
  have frame := ended.frame
  rw [now]
  generalize s.endBooking i k new = u at *
  have evaluated := scheduled_evaluate { u with bks := { u.bks with waiters := u.bks.waiters ++ [⟨r, .ok, [], [s.bks.waitOn (.booking i)]⟩] } }
  have later : u.flight <+: _ := evaluated.flight
  have waited : ScheduleFrame u { u with bks := { u.bks with waiters := u.bks.waiters ++ [⟨r, .ok, [], [s.bks.waitOn (.booking i)]⟩] } } := rfl
  refine ⟨(frame.trans waited).trans evaluated.frame, told.later later, evaluate_keeps set.here (.inl spent), ?_, later.subset lamp, seating,
    later.subset word⟩
  rw [evaluated.store, waiters]

/-- The end of a meeting moved, before the command waits and the evaluation (R151). -/
def State.stopMoved (s : State) (i : BSlot) (k : Booking) (stop : DayMinute) : State :=
  if k.state = .ending then ((s.remember none none).transition i k .active fun b => { b with stop := stop }).endingStops
  else s.setBooking i (some { k with stop := stop })

theorem scheduled_stopMoved (s : State) (i : BSlot) (k : Booking) (stop : DayMinute) : Scheduled s (s.stopMoved i k stop) :=
  .ite (fun _ => (((Scheduled.refl s).remember none none).transition i k .active _).emit _) fun _ => scheduled_setBooking s i _

theorem stopMoved_set (s : State) (i : BSlot) (stop : DayMinute) (runs : k.state = .active ∨ k.state = .ending) :
    BookingSet i { k with state := .active, stop := stop } s (s.stopMoved i k stop) := by
  obtain active | ending := runs
  · have same : ({ k with stop := stop } : Booking) = { k with state := .active, stop := stop } := by rw [← active]
    rw [State.stopMoved, if_neg (by simp [active]), same]
    exact setBooking_get i _ s.bks
  · rw [State.stopMoved, if_pos ending]
    exact transition_set (s.remember none none) i k .active fun b => { b with stop := stop }

theorem stopMoved_told (s : State) (i : BSlot) (stop : DayMinute) (ending : k.state = .ending) :
    TransitionTold (s.stopMoved i k stop) i k .ending .active := by
  rw [State.stopMoved, if_pos ending, ← ending]
  exact (transition_told (s.remember none none) i k .active fun b => { b with stop := stop }).later (List.prefix_append ..)

theorem extendTo_eq (s : State) (r : CmdRef) (i : BSlot) (k : Booking) (stop : DayMinute) : s.extendTo r i k stop =
    ((s.stopMoved i k stop).refreshAgenda.await r
      (s.bks.waitsIf ((s.stopMoved i k stop).bks.bookings.get i ≠ s.bks.bookings.get i) (.booking i))).evaluate := rfl

theorem extendTo_spec (s : State) (r : CmdRef) (i : BSlot) (stop : DayMinute) (runs : k.state = .active ∨ k.state = .ending)
    (early : s.now < instantOf stop) : ScheduleFrame s (s.extendTo r i k stop) ∧
      (k.state = .ending → TransitionTold (s.extendTo r i k stop) i k .ending .active) ∧
      (s.extendTo r i k stop).bks.bookings.get i = some { k with state := .active, stop := stop } := by
  have moved := (scheduled_stopMoved s i k stop).refreshAgenda
  have set := (stopMoved_set s i stop runs).of_bks (refreshAgenda_bks _)
  have told : k.state = .ending → TransitionTold (s.stopMoved i k stop).refreshAgenda i k .ending .active := fun ending =>
    (stopMoved_told s i stop ending).later (Scheduled.refl _).refreshAgenda.flight
  rw [extendTo_eq]
  generalize s.bks.waitsIf _ _ = waits
  generalize (s.stopMoved i k stop).refreshAgenda = u at *
  obtain ⟨frame, bookings, msc, later⟩ := await_spec u r waits []
  have evaluated := scheduled_evaluate (u.await r waits)
  have now : (u.await r waits).now = s.now := (by rw [State.now, msc]; rfl : (u.await r waits).now = u.now).trans moved.now
  refine ⟨(moved.frame.trans frame).trans evaluated.frame, fun ending => (told ending).later (later.trans evaluated.flight),
    evaluate_keeps ?_ (.inr ⟨rfl, ?_⟩)⟩
  · rw [bookings]
    exact set.here
  · rw [now]
    exact early

theorem exec_extend {r : CmdRef} {stop : DayMinute} (held : s.bks.bookings.get i = some k) (runs : k.state = .active ∨ k.state = .ending)
    (valid : validTime stop = true) (set : s.msc.clock = .set) (long : k.start.minutes + 5 ≤ stop.minutes) (short : stop.minutes ≤ k.start.minutes + 720)
    (early : s.now < instantOf stop)
    (clear : ∀ j b, j ≠ i → s.bks.bookings.get j = some b → isLive b.state = true → overlap { k with stop := stop } b = false) :
    exec (.extend r (some i) stop) s = .next ((s.taking (.extend r (some i) stop)).extendTo r i k stop) := by
  have run : exec (.extend r (some i) stop) s = execExtend r (some i) stop s := rfl
  have meeting : inMeeting k.state = true := by simpa [inMeeting] using runs
  have clock : (s.taking (.extend r (some i) stop)).msc.clock = .set := set
  have free : s.bks.clashes (some i) { k with stop := stop } = false := clashes_false fun j b other => clear j b fun same => other (congrArg some same)
  have inTime : ¬(stop.minutes < k.start.minutes + 5 ∨ k.start.minutes + 720 < stop.minutes ∨ instantOf stop ≤ (s.taking (.extend r (some i) stop)).now) := by
    have now : (s.taking (.extend r (some i) stop)).now = s.now := rfl
    omega
  rw [run, execExtend]
  simp only [State.taking_bks, held, valid, meeting, clock, free, if_neg inTime]
  rfl

/-! ## Booking reports (R153) -/

theorem stepBack_kept (held : s.bks.bookings.get i = some k) (kept : k.state ≠ .pending) (moved : Bool) : s.stepBack i moved = s := by
  rw [State.stepBack, held]
  exact if_neg fun ⟨_, pending, _⟩ => kept pending

theorem stepBack_unmoved (s : State) (i : BSlot) : s.stepBack i false = s := by
  unfold State.stepBack
  split
  · rfl
  · exact if_neg (by simp)

theorem agendaAfterEdit_bks (s : State) (i : BSlot) (titled : Bool) : (s.agendaAfterEdit i titled).bks = s.bks := by
  unfold State.agendaAfterEdit
  split
  · rfl
  · exact refreshAgenda_bks s

theorem exec_bookingEdited (i : BSlot) (old new : SeatPlan) (titled moved : Bool) (s : State) :
    exec (.bookingReport (.edited i old new titled moved)) s = .next (((match
        ((s.taking (.bookingReport (.edited i old new titled moved))).stepBack i moved).bks.bookings.get i with
      | some k => if inMeeting k.state then
          ((s.taking (.bookingReport (.edited i old new titled moved))).stepBack i moved).passEdit k.state old new
        else (s.taking (.bookingReport (.edited i old new titled moved))).stepBack i moved
      | none => (s.taking (.bookingReport (.edited i old new titled moved))).stepBack i moved).agendaAfterEdit i titled).evaluate) := rfl

theorem exec_bookingEdited_running (held : s.bks.bookings.get i = some k) (runs : k.state = .active ∨ k.state = .ending) (old new : SeatPlan)
    (titled moved : Bool) : exec (.bookingReport (.edited i old new titled moved)) s =
      .next (((s.taking (.bookingReport (.edited i old new titled moved))).passEdit k.state old new).agendaAfterEdit i titled).evaluate := by
  have heldT : (s.taking (.bookingReport (.edited i old new titled moved))).bks.bookings.get i = some k := held
  have kept : k.state ≠ .pending := by obtain state | state := runs <;> simp [state]
  have meeting : inMeeting k.state = true := by simpa [inMeeting] using runs
  rw [exec_bookingEdited, stepBack_kept heldT kept, heldT]
  dsimp only
  rw [if_pos meeting]

theorem passEdit_sends (s : State) (st : BState) {old new : SeatPlan} (differs : old ≠ new) :
    .attendeeEditReport new s.settings.lockPolicy ∈ (s.passEdit st old new).flight ∧
      ∀ x, old.lists x = true → new.lists x = false → ∃ seats, x ∈ seats ∧ .droppedSeatsReport seats ∈ (s.passEdit st old new).flight := by
  refine ⟨?_, fun x listed dropped => ?_⟩
  · refine List.mem_append_right _ (List.mem_append_left _ (List.mem_append_left _ ?_))
    rw [if_neg differs]
    exact .head _
  · have mem : x ∈ droppedSeats old new := by simp [droppedSeats, allSeats, listed, dropped]
    refine ⟨droppedSeats old new, mem, List.mem_append_right _ (List.mem_append_left _ (List.mem_append_right _ ?_))⟩
    rw [if_neg (List.ne_nil_of_mem mem)]
    exact .head _

/-- A title or organiser edit of a booking on the agenda sends it (R106, R153). -/
theorem agendaAfterEdit_sends (listed : s.current = some (i, k) ∨ s.nextBooking = some (i, k)) :
    .agendaReport s.agenda ∈ (s.agendaAfterEdit i true).flight := by
  have here : s.onAgenda i = true := by
    obtain current | next := listed
    · simp [State.onAgenda, current]
    · simp [State.onAgenda, next]
  have send : s.agendaAfterEdit i true = s.sendAgenda := if_pos here
  rw [send]
  exact List.mem_append_right _ (.head _)

theorem exec_bookingCancelled (i : BSlot) (wasPending : Bool) (s : State) : exec (.bookingReport (.cancelled i wasPending)) s = .next
    ((if wasPending && s.currentSlot.isNone then (s.taking (.bookingReport (.cancelled i wasPending))).emit [.bookingCurrentReport false]
      else s.taking (.bookingReport (.cancelled i wasPending))).refreshAgenda.evaluate) := rfl

/-- The state with another pre-start lead (R154). -/
def State.withLead (s : State) (lead : Nat) : State := { s with settings := { s.settings with preStartLead := lead } }

/-! ## The lock policy (R149, R154) -/

theorem exec_setLockPolicy {p : LockPolicy} (differs : p ≠ s.settings.lockPolicy) (r : CmdRef) : exec (.setLockPolicy r (some p)) s = .next { s with
    settings := { s.settings with lockPolicy := p }
    flight := s.flight.erase (.setLockPolicy r (some p)) ++
      [.seatingReport (seatingOf p (s.current.map fun a => (a.2.state, a.2.plan.attendees))) s.meetingOn, .blockResult r .ok []] } := by
  refine (congrArg Host.Outcome.next (if_neg differs) : exec (.setLockPolicy r (some p)) s = _).trans ?_
  exact congrArg Host.Outcome.next (State.emit_emit ({ s.taking (.setLockPolicy r (some p)) with settings := { s.settings with lockPolicy := p } } : State) _ _)

/-! ## The catch-up of a SET-CLOCK (R155) -/

/-- With one live booking alone, and it SCHEDULED, the catch-up takes it to its due state. -/
theorem catchUp_alone (held : s.bks.bookings.get i = some k) (scheduled : k.state = .scheduled)
    (others : ∀ j b, j ≠ i → s.bks.bookings.get j = some b → isLive b.state = false) :
    s.catchUp false = if s.dueState i k = .scheduled then s else s.enterDue i k (s.dueState i k) := by
  have live : isLive k.state = true := by rw [scheduled]; rfl
  have free : s.currentSlot = none := currentSlot_none_iff.mpr fun j b heldB => by
    by_cases here : j = i
    · subst here
      cases held.symm.trans heldB
      rw [scheduled]
      rfl
    · have dead := others j b here heldB
      cases state : b.state <;> simp_all [isLive, isCurrent]
  have only : s.liveSlots = [i] := by rw [State.liveSlots, byStart_only held live others]; rfl
  have found : s.bks.live i = some k := mem_live_iff.mpr ⟨held, live⟩
  have one : s.catchUpOne false [] i = if s.dueState i k = .scheduled then s else s.enterDue i k (s.dueState i k) := by
    rw [State.catchUpOne, found]
    simp only [free, scheduled]
    cases s.dueState i k <;> rfl
  have whole : s.catchUp false = if s.currentSlot.isSome && (catchUpOver false [] s.liveSlots s).currentSlot ≠ s.currentSlot then
      (catchUpOver false [] s.liveSlots s).evaluate else catchUpOver false [] s.liveSlots s := rfl
  rw [whole, only, if_neg (by simp [free])]
  exact one

/-- A booking taken up by a catch-up, with its transition told. -/
def CaughtUp (t : State) (i : BSlot) (k b : Booking) : Prop := t.bks.bookings.get i = some b ∧ TransitionTold t i k .scheduled b.state

theorem caughtUp_pending (scheduled : k.state = .scheduled) (noFlag : ∀ x, (s.tbc.seats.get x).flag.mic = false) :
    CaughtUp (s.enterDue i k .pending) i k { k with state := .pending } := by
  have due : s.enterDue i k .pending = s.entering none i k .pending := enterPending_clear noFlag
  rw [due, CaughtUp, ← scheduled]
  exact ⟨(entering_set s none i k .pending).here, entering_told s none i k .pending⟩

theorem caughtUp_awaiting (scheduled : k.state = .scheduled) (noFlag : ∀ x, (s.tbc.seats.get x).flag.mic = false) :
    CaughtUp (s.enterDue i k .awaiting) i k { k with state := .awaiting } := by
  have due : s.enterDue i k .awaiting = s.entering (some s.msc.minuteInstant) i k .awaiting := enterAwaiting_clear noFlag
  rw [due, CaughtUp, ← scheduled]
  exact ⟨(entering_set s _ i k .awaiting).here, entering_told s _ i k .awaiting⟩

theorem caughtUp_active (scheduled : k.state = .scheduled) : CaughtUp (s.enterDue i k .active) i k { k with state := .active } := by
  rw [CaughtUp, ← scheduled]
  exact ⟨(activate_set (s.emit _) i k id).here, activate_told (s.emit _) i k id⟩

theorem caughtUp_spent (scheduled : k.state = .scheduled) {new : BState} (spent : new = .ended ∨ new = .released) :
    CaughtUp (s.enterDue i k new) i k { k with state := new, actualEnd := some (s.msc.day, s.msc.second) } := by
  have due : s.enterDue i k new = s.endBooking i k new := by obtain rfl | rfl := spent <;> rfl
  have entered : s.msc.entered new k = { k with state := new, actualEnd := some (s.msc.day, s.msc.second) } := by
    rw [Msc.entered, if_pos spent]
  rw [due, CaughtUp, ← scheduled, ← entered]
  exact ⟨(endBooking_set s i k new).here, endBooking_told s i k new⟩

theorem caughtUp_ending (scheduled : k.state = .scheduled) : CaughtUp (s.enterDue i k .ending) i k { k with state := .ending } := by
  have moved := transition_set (s.remember none (some s.settings.overrunGrace)) i k .ending id
  have told := transition_told (s.remember none (some s.settings.overrunGrace)) i k .ending id
  have due : s.enterDue i k .ending = ((((s.remember none (some s.settings.overrunGrace)).transition i k .ending id).emit
      [.wakeRequest .booking]).activationEffects k).refreshAgenda.endingBegins := by
    have entered : s.enterDue i k .ending = ((((s.remember none (some s.settings.overrunGrace)).transition i k .ending id).emit
      [.wakeRequest .booking]).activateOver k.state k).refreshAgenda.endingBegins := rfl
    rw [entered, scheduled]
    rfl
  rw [due, CaughtUp, ← scheduled]
  generalize (s.remember none (some s.settings.overrunGrace)).transition i k .ending id = u at *
  have later := ((((Scheduled.refl u).emit [.wakeRequest .booking]).activationEffects k).refreshAgenda.emit [.endingMarkReport true, .endingBlinkReport true]).flight
  have bookings : ((u.emit [.wakeRequest .booking]).activationEffects k).refreshAgenda.endingBegins.bks = u.bks :=
    refreshAgenda_bks ((u.emit [.wakeRequest .booking]).activationEffects k)
  exact ⟨(moved.of_bks bookings).here, told.later later⟩

theorem dueState_pending (lead : leadInstant s.settings.preStartLead k ≤ s.now) (early : s.now < instantOf k.start) : s.dueState i k = .pending := by
  rw [State.dueState, if_neg (Nat.not_lt.mpr lead), if_pos early]

/-- From its start on a booking is due in a state after PENDING. -/
theorem dueState_begun (begun : instantOf k.start ≤ s.now) : s.dueState i k =
    if s.now < instantOf k.stop then (if gathered k then .active else .awaiting)
    else if !gathered k then .released
    else if s.now < s.graceDeadline i k (s.catchUpGrace k) then .ending else .ended := by
  have lead : leadInstant s.settings.preStartLead k ≤ s.now := (Nat.sub_le _ _).trans begun
  rw [State.dueState, if_neg (Nat.not_lt.mpr lead), if_neg (Nat.not_lt.mpr begun)]

/-- What the catch-up makes of the only live booking, if it is SCHEDULED (R155). -/
theorem catchUp_due (held : s.bks.bookings.get i = some k) (scheduled : k.state = .scheduled)
    (others : ∀ j b, j ≠ i → s.bks.bookings.get j = some b → isLive b.state = false) (ordered : instantOf k.start ≤ instantOf k.stop) :
    (s.now < leadInstant s.settings.preStartLead k → (s.catchUp false).bks.bookings.get i = some k) ∧
    ((∀ x, (s.tbc.seats.get x).flag.mic = false) → leadInstant s.settings.preStartLead k ≤ s.now → s.now < instantOf k.start →
      CaughtUp (s.catchUp false) i k { k with state := .pending }) ∧
    ((∀ x, (s.tbc.seats.get x).flag.mic = false) → ¬ (k.noShow = 0 ∨ k.checkedIn = true) → instantOf k.start ≤ s.now → s.now < instantOf k.stop →
      CaughtUp (s.catchUp false) i k { k with state := .awaiting }) ∧
    (k.noShow = 0 ∨ k.checkedIn = true → instantOf k.start ≤ s.now → s.now < instantOf k.stop →
      CaughtUp (s.catchUp false) i k { k with state := .active }) ∧
    (k.noShow = 0 ∨ k.checkedIn = true → instantOf k.stop ≤ s.now → s.now < instantOf k.stop + 60 * s.settings.overrunGrace →
      CaughtUp (s.catchUp false) i k { k with state := .ending }) ∧
    (k.noShow = 0 ∨ k.checkedIn = true → instantOf k.stop ≤ s.now → instantOf k.stop + 60 * s.settings.overrunGrace ≤ s.now →
      CaughtUp (s.catchUp false) i k { k with state := .ended, actualEnd := some (s.msc.day, s.msc.second) }) ∧
    (¬ (k.noShow = 0 ∨ k.checkedIn = true) → instantOf k.stop ≤ s.now →
      CaughtUp (s.catchUp false) i k { k with state := .released, actualEnd := some (s.msc.day, s.msc.second) }) := by
  have grace : s.graceDeadline i k (s.catchUpGrace k) = instantOf k.stop + 60 * s.settings.overrunGrace := by
    rw [graceDeadline_alone others, State.catchUpGrace, if_neg (by simp [scheduled])]
  have goes : ∀ due, due ≠ .scheduled → s.dueState i k = due → s.catchUp false = s.enterDue i k due := fun due moves is => by
    rw [catchUp_alone held scheduled others, is, if_neg moves]
  rw [← gathered_iff]
  refine ⟨fun lead => ?_, fun noFlag lead early => ?_, fun noFlag missing begun early => ?_, fun had begun early => ?_, fun had ended within => ?_,
    fun had ended past => ?_, fun missing ended => ?_⟩
  · have due : s.dueState i k = .scheduled := by rw [State.dueState, if_pos lead]
    rw [catchUp_alone held scheduled others, if_pos due]
    exact held
  · rw [goes .pending nofun (dueState_pending lead early)]
    exact caughtUp_pending scheduled noFlag
  · rw [goes .awaiting nofun (by rw [dueState_begun begun, if_pos early, if_neg missing])]
    exact caughtUp_awaiting scheduled noFlag
  · rw [goes .active nofun (by rw [dueState_begun begun, if_pos early, if_pos had])]
    exact caughtUp_active scheduled
  · rw [goes .ending nofun (by rw [dueState_begun (ordered.trans ended), if_neg (Nat.not_lt.mpr ended), if_neg (by simp [had]), grace, if_pos within])]
    exact caughtUp_ending scheduled
  · rw [goes .ended nofun (by
      rw [dueState_begun (ordered.trans ended), if_neg (Nat.not_lt.mpr ended), if_neg (by simp [had]), grace, if_neg (Nat.not_lt.mpr past)])]
    exact caughtUp_spent scheduled (.inl rfl)
  · rw [goes .released nofun (by rw [dueState_begun (ordered.trans ended), if_neg (Nat.not_lt.mpr ended), if_pos (by simpa using missing)])]
    exact caughtUp_spent scheduled (.inr rfl)

theorem CaughtUp.reply {b : Booking} (caught : CaughtUp t i k b) (r : CmdRef) (res : Result) (p : List Byte) : CaughtUp (t.reply r res p) i k b :=
  ⟨caught.1, caught.2.later (List.prefix_append ..)⟩

/-- The seating state that a policy gives the current booking's state and list (R149). -/
theorem seatingOf_current (p : LockPolicy) (k : Booking) : seatingOf p (some (k.state, k.plan.attendees)) =
    if p = .free then .openRoom else if k.state = .active ∨ k.state = .ending then
      (if k.plan.attendees = [] then .openRoom else .meeting) else .lockedRoom := by
  cases p with
  | free => rfl
  | locked => simp [seatingOf, inMeeting]

end

/-- Settles O44. -/
theorem meetingsEndAndMove : Obligations.MeetingsEndAndMove := by
  intro r i k stop n p s
  refine ⟨fun held runs => ?ended, fun held awaiting => ?released, fun held runs valid set long short early clear => ?extended,
    fun held runs old new m moved differs => ?edited, fun listed old new => ?agenda, ?cancelled, ?lead, congrArg _ (if_pos rfl),
    fun differs free => ?policyFree, fun day second dayIn secondIn runs held scheduled others ordered => ?caughtUp, fun differs current => ?policy⟩
  case ended =>
    have meeting : inMeeting k.state = true := by simpa [inMeeting] using runs
    obtain ⟨frame, told, set, waiters, lamp, word⟩ := endedNow_spec (s.taking (.endNow r (some i))) r i k (new := .ended) rfl
    exact ⟨_, (exec_endNow held r).trans (next_congr (if_pos meeting)), (taking_frame s _).trans frame, told, set, waiters, lamp, word⟩
  case released =>
    have noMeeting : ¬ inMeeting k.state = true := by simp [inMeeting, awaiting]
    obtain ⟨frame, told, set, -⟩ := endedNow_spec (s.taking (.endNow r (some i))) r i k (new := .released) rfl
    rw [awaiting] at told
    exact ⟨_, (exec_endNow held r).trans (next_congr ((if_neg noMeeting).trans (if_pos awaiting))), (taking_frame s _).trans frame, told, set⟩
  case extended =>
    obtain ⟨frame, told, set'⟩ := extendTo_spec (s.taking (.extend r (some i) stop)) r i stop runs early
    exact ⟨_, exec_extend held runs valid set long short early clear, (taking_frame s _).trans frame, told, set'⟩
  case edited =>
    have passed : Scheduled (s.taking (.bookingReport (.edited i old new m moved))) _ := (Scheduled.refl _).passEdit k.state old new
    have sent := passEdit_sends (s.taking (.bookingReport (.edited i old new m moved))) k.state differs
    have bks : ((s.taking (.bookingReport (.edited i old new m moved))).passEdit k.state old new).bks = s.bks := rfl
    have run := exec_bookingEdited_running held runs old new m moved
    generalize (s.taking (.bookingReport (.edited i old new m moved))).passEdit k.state old new = u at *
    have after := (Scheduled.refl u).agendaAfterEdit i m
    have evaluated := scheduled_evaluate (u.agendaAfterEdit i m)
    have later := after.flight.trans evaluated.flight
    obtain ⟨word, dropped⟩ := sent
    refine ⟨_, run, (((taking_frame s _).trans passed.frame).trans after.frame).trans evaluated.frame, fun unset => ?_, later.subset word,
      fun x listed gone => ?_⟩
    · have clock : (u.agendaAfterEdit i m).msc.clock ≠ .set := by
        rw [after.clock.1, passed.clock.1]
        exact unset
      rw [evaluate_unset clock, agendaAfterEdit_bks, bks]
    · obtain ⟨seats, mem, told⟩ := dropped x listed gone
      exact ⟨seats, mem, later.subset told⟩
  case agenda =>
    have run := exec_bookingEdited i old new true false s
    rw [stepBack_unmoved] at run
    have passed : ∃ l, (match (s.taking (.bookingReport (.edited i old new true false))).bks.bookings.get i with
        | some k => if inMeeting k.state then (s.taking (.bookingReport (.edited i old new true false))).passEdit k.state old new
          else s.taking (.bookingReport (.edited i old new true false))
        | none => s.taking (.bookingReport (.edited i old new true false))) = (s.taking (.bookingReport (.edited i old new true false))).emit l := by
      have same : ∀ u : State, u = u.emit [] := fun u => by rw [State.emit, List.append_nil]
      split
      · split
        · exact ⟨_, rfl⟩
        · exact ⟨[], same _⟩
      · exact ⟨[], same _⟩
    obtain ⟨l, passed⟩ := passed
    rw [passed] at run
    have agenda : ((s.taking (.bookingReport (.edited i old new true false))).emit l).agenda = s.agenda := rfl
    have sent := agendaAfterEdit_sends (s := (s.taking (.bookingReport (.edited i old new true false))).emit l) listed
    rw [agenda] at sent
    have after := (scheduled_emit (s.taking (.bookingReport (.edited i old new true false))) l).agendaAfterEdit i true
    generalize ((s.taking (.bookingReport (.edited i old new true false))).emit l).agendaAfterEdit i true = u at *
    have evaluated := scheduled_evaluate u
    exact ⟨_, run, ((taking_frame s _).trans after.frame).trans evaluated.frame, evaluated.flight.subset sent⟩
  case cancelled =>
    refine ⟨_, exec_bookingCancelled i true s, ?_, fun free => ?_⟩
    · exact (taking_frame s _).trans (Scheduled.evaluate (Scheduled.refreshAgenda (.ite (fun _ => scheduled_emit _ _) fun _ => .refl _))).frame
    · rw [if_pos (by simp [free])]
      exact (Scheduled.refl _).refreshAgenda.evaluate.flight.subset (List.mem_append_right _ (.head _))
  case lead =>
    have run : exec (.setPreStartLead r (some n)) s = .next ((s.taking (.setPreStartLead r (some n))).setNumber r 0 30 (some n) i16
      fun n s => (s.withLead n.toNat).evaluate) := rfl
    have result : Instr.blockResult r (if 0 ≤ n ∧ n ≤ 30 then .ok else .clamped) (if 0 ≤ n ∧ n ≤ 30 then [] else i16 (clampInt 0 30 n)) =
        if 0 ≤ n ∧ n ≤ 30 then .blockResult r .ok [] else .blockResult r .clamped (i16 (clampInt 0 30 n)) := by split <;> rfl
    have evaluated := scheduled_evaluate ((s.taking (.setPreStartLead r (some n))).withLead (clampInt 0 30 n).toNat)
    have last := endsWith_reply_of_prefix (s := s) (c := .setPreStartLead r (some n)) evaluated.flight r (if 0 ≤ n ∧ n ≤ 30 then .ok else .clamped)
      (if 0 ≤ n ∧ n ≤ 30 then [] else i16 (clampInt 0 30 n))
    have frame : ScheduleFrame (s.withLead (clampInt 0 30 n).toNat) _ :=
      ScheduleFrame.trans (t := (s.taking (.setPreStartLead r (some n))).withLead (clampInt 0 30 n).toNat) rfl evaluated.frame
    have settings : _ = (s.withLead (clampInt 0 30 n).toNat).settings := evaluated.settings
    rw [setNumber_clamped] at run
    rw [result] at last
    generalize ((s.taking (.setPreStartLead r (some n))).withLead (clampInt 0 30 n).toNat).evaluate = u at *
    have replied := frame.reply r (if 0 ≤ n ∧ n ≤ 30 then .ok else .clamped) (if 0 ≤ n ∧ n ≤ 30 then [] else i16 (clampInt 0 30 n))
    have base : s.withLead (clampInt 0 30 n).toNat = { s with settings := u.settings } := by rw [settings]; rfl
    rw [base] at replied
    exact ⟨_, run, replied, settings, last⟩
  case policyFree =>
    have off : s.meetingOn = false := by rw [State.meetingOn, free]; rfl
    rw [exec_setLockPolicy differs, free, off]
    cases p <;> rfl
  case caughtUp =>
    refine ⟨_, exec_setClock_set dayIn secondIn runs, ?_⟩
    obtain ⟨early, pending, awaiting, active, ending, ended, released⟩ := catchUp_due
      (s := ({ s.taking (.setClock r day second) with msc := s.msc.setTo day second } : State).tellClock) held scheduled others ordered
    exact ⟨early, fun noFlag lead before => (pending noFlag lead before).reply r .ok [],
      fun noFlag missing begun before => (awaiting noFlag missing begun before).reply r .ok [],
      fun had begun before => (active had begun before).reply r .ok [], fun had past within => (ending had past within).reply r .ok [],
      fun had past gone => (ended had past gone).reply r .ok [], fun missing past => (released missing past).reply r .ok []⟩
  case policy =>
    have meeting : s.meetingOn = (k.state = .active || k.state = .ending) := by rw [State.meetingOn, current]; rfl
    rw [exec_setLockPolicy differs, current, meeting, Option.map_some, seatingOf_current]

end Sys2Proof.Machine
end

section
/-! PROOF. The floor (chapter 2): what one event at the floor comes to, said once, and the keys, the voice reports and the timers. -/

namespace Sys2Proof.Machine

open Sys2Proof

/-! ## One event at the floor (R37) -/

/-- The floor change that the handling of an event from `s` begins, with the settings and the floor it made. -/
def State.floorHandled (s : State) (l : List Instr) (st : Settings) (f : Flc) : State := { s with settings := st, flc := f, flight := l }

/-- An event that makes the floor `f` under the settings `st`, sends its results and then `more` (R37). -/
theorem floorBecomesUnder_change {cause : FloorCause} {s t : State} {l : List Instr} {st : Settings} {f : Flc} {more : List Instr}
    (taken : l = s.flight ∨ ∃ c, l = s.flight.erase c) (told : f.emptyTold = s.flc.emptyTold) (follows : ∀ i ∈ more, FollowsFloor i)
    (made : t = (State.floorChange cause s (s.floorHandled l st f)).emit more) : FloorBecomesUnder cause s t st f := by
  have settled := floorChange_settled cause s (s.floorHandled l st f)
  have tells := floorChange_told cause s (s.floorHandled l st f) t more taken told made follows
  subst made
  exact ⟨rfl, rfl, settled, tells⟩

section
variable {s0 s0' : State} (s1 : State) (floor : s0.flc = s0'.flc) (settings : s0.settings = s0'.settings)
include floor settings

theorem settledFlc_congr : State.settledFlc s0 s1 = State.settledFlc s0' s1 := by
  have due : promotionDue s0 s1 = promotionDue s0' s1 := by simp only [promotionDue, floor, settings]
  rw [State.settledFlc, State.settledFlc, due]

theorem floorResults_congr (cause : FloorCause) : floorResults cause s0 s1 = floorResults cause s0' s1 := by
  simp only [floorResults, mixResult, scrResult, lampResult, seatResults, noticeResult, floor, settings]

/-- Of the state before an event, a floor change reads the floor and the settings alone. -/
theorem floorChange_congr (cause : FloorCause) : State.floorChange cause s0 s1 = State.floorChange cause s0' s1 := by
  rw [floorChange_eq, floorChange_eq, settledFlc_congr s1 floor settings, floorResults_congr _ floor settings]

end

theorem floorEdit_eq (cause : FloorCause) (s : State) (c : Instr) (edit : Flc → Flc) :
    (s.taking c).floorEdit cause edit = State.floorChange cause s (s.floorHandled (s.flight.erase c) s.settings (edit s.flc)) := by
  have handled : ({ s.taking c with flc := edit (s.taking c).flc } : State) = s.floorHandled (s.flight.erase c) s.settings (edit s.flc) := rfl
  rw [State.floorEdit, handled]
  exact floorChange_congr _ rfl rfl cause

theorem floorBecomes_edit {cause : FloorCause} {s : State} {c : Instr} {edit : Flc → Flc} {f : Flc} (made : edit s.flc = f)
    (told : f.emptyTold = s.flc.emptyTold) (more : List Instr) (follows : ∀ i ∈ more, FollowsFloor i) :
    FloorBecomes cause s (((s.taking c).floorEdit cause edit).emit more) f := by
  refine floorBecomesUnder_change (.inr ⟨c, rfl⟩) told follows ?_
  rw [floorEdit_eq, made]

theorem emit_nil (s : State) : s.emit [] = s := by rw [State.emit, List.append_nil]

theorem floorBecomes_only {cause : FloorCause} {s : State} {c : Instr} {edit : Flc → Flc} {f : Flc} (made : edit s.flc = f)
    (told : f.emptyTold = s.flc.emptyTold) : FloorBecomes cause s ((s.taking c).floorEdit cause edit) f := by
  refine floorBecomesUnder_change (more := []) (.inr ⟨c, rfl⟩) told (by simp) ?_
  rw [emit_nil, floorEdit_eq, made]

/-- An event that changes nothing brings no promotion (R24). -/
theorem promotionDue_same {s t : State} (floor : t.flc = s.flc) (settings : t.settings = s.settings) : promotionDue s t = false := by
  have kept : lostSeat s.flc s.flc = false := by simp [lostSeat]
  have muted : seatsDiffer (·.selfMuted) s.flc s.flc = false := by simp [seatsDiffer]
  simp [promotionDue, floor, settings, kept, muted]

theorem floorStays_edit {cause : FloorCause} {s : State} {c : Instr} {edit : Flc → Flc} (made : edit s.flc = s.flc) (more : List Instr)
    (follows : ∀ i ∈ more, FollowsFloor i) : FloorStays cause s (((s.taking c).floorEdit cause edit).emit more) := by
  have idle : promotionDue s (s.floorHandled (s.flight.erase c) s.settings s.flc) = false := promotionDue_same rfl rfl
  have floor : State.settledFlc s (s.floorHandled (s.flight.erase c) s.settings s.flc) = s.flc.withRings s.settings.warningLead :=
    congrArg (Flc.withRings s.settings.warningLead) (if_neg (by simp [idle]))
  refine ⟨floorBecomes_edit made rfl more follows, ?_⟩
  rw [floorEdit_eq, made, State.emit_flc, floorChange_eq, floor]
  exact ⟨rfl, rfl⟩

/-! ## Entries of the collections -/

theorem queue_without {f : Flc} {x : Seat} (idle : f.waits x = false) : (f.queue.filter fun q => q.seat ≠ x) = f.queue := by
  rw [List.filter_eq_self]
  intro q mem
  simp only [Flc.waits, List.any_eq_false, decide_eq_true_eq] at idle
  simpa using idle q mem

/-- An opening appends the entry of its seat (R21, R34). -/
theorem openSeat_eq (s : State) (x : Seat) (o : Origin) : s.flc.openSeat s.floorEnv x o = { s.flc with
    speakers := s.flc.speakers ++ [newEntry s x o]
    queue := s.flc.queue.filter fun q => q.seat ≠ x
    seats := s.flc.seats.upd x { s.flc.seats.get x with selfMuted := false, flash := none } } := rfl

theorem openSeat_idle {s : State} {x : Seat} (idle : s.flc.waits x = false) (o : Origin) : s.flc.openSeat s.floorEnv x o = { s.flc with
    speakers := s.flc.speakers ++ [newEntry s x o]
    seats := s.flc.seats.upd x { s.flc.seats.get x with selfMuted := false, flash := none } } := by
  rw [openSeat_eq, queue_without idle]

/-- An eviction and the opening it made room for (R23). -/
theorem evict_openSeat {s : State} {x v : Seat} (idle : s.flc.waits x = false) (victim : s.flc.victim = some v) (o : Origin) :
    s.flc.evict.openSeat s.floorEnv x o = { s.flc with
      speakers := (s.flc.speakers.filter fun e => e.seat ≠ v) ++ [newEntry s x o]
      overrides := s.flc.overrides.filter fun y => y ≠ v
      seats := s.flc.seats.upd x { s.flc.seats.get x with selfMuted := false, flash := none } } := by
  rw [evict_eq victim]
  have without : ((s.flc.closeSeat v).queue.filter fun q => q.seat ≠ x) = s.flc.queue := queue_without idle
  have opened : (s.flc.closeSeat v).openSeat s.floorEnv x o = { s.flc with
      speakers := (s.flc.speakers.filter fun e => e.seat ≠ v) ++ [newEntry s x o]
      queue := (s.flc.closeSeat v).queue.filter fun q => q.seat ≠ x
      overrides := s.flc.overrides.filter fun y => y ≠ v
      seats := s.flc.seats.upd x { s.flc.seats.get x with selfMuted := false, flash := none } } := rfl
  rw [opened, without]

theorem enqueueOrRefuse_room {f : Flc} {e : FloorEnv} {x : Seat} {o : Origin} (room : f.queue.length < 24) :
    f.enqueueOrRefuse e x o = f.enqueue e x o := if_pos room

theorem enqueueOrRefuse_full {f : Flc} {e : FloorEnv} {x : Seat} {o : Origin} (full : 24 ≤ f.queue.length) :
    f.enqueueOrRefuse e x o = f.refuse x := if_neg (Nat.not_lt.mpr full)

theorem hasRoom_iff {f : Flc} : f.hasRoom = true ↔ f.speakers.length < f.limit := by simp [Flc.hasRoom]

theorem hasRoom_false_iff {f : Flc} : f.hasRoom = false ↔ f.limit ≤ f.speakers.length := by simp [Flc.hasRoom]

/-- The override hold keeps this seat back (R33). -/
def KeptBack (s : State) (x : Seat) : Prop := hasPriority (s.flc.role x) = false ∧ s.flc.holds s.settings.priorityPolicy = true

theorem keptBack_iff {s : State} {x : Seat} : (s.flc.holds s.settings.priorityPolicy && !hasPriority (s.flc.role x)) = true ↔ KeptBack s x := by
  simp [KeptBack, and_comm]

/-! ## Key events (R25 to R32) -/

theorem exec_keyEvent_heard {s : State} {x : Seat} (hears : s.flc.hears = true) (part : s.flc.takesPart x = true) (k : Key) (edge : KeyEdge)
    (m : KeyMode) : exec (.keyEvent x k edge m) s = .next (((s.taking (.keyEvent x k edge m)).floorEdit .keyEvent
      (Flc.keyEdit s.floorEnv s.settings x k edge m)).emit (chimeOf s.flc x k edge)) :=
  next_congr (if_pos ⟨hears, part⟩)

theorem chimeOf_follows (f : Flc) (x : Seat) (k : Key) (edge : KeyEdge) : ∀ i ∈ chimeOf f x k edge, FollowsFloor i := fun i mem => by
  unfold chimeOf at mem
  split at mem
  · rw [List.mem_singleton.mp mem]
    trivial
  · cases mem

theorem keyEvent_becomes {s : State} {x : Seat} (hears : s.flc.hears = true) (part : s.flc.takesPart x = true) {k : Key} {edge : KeyEdge}
    {m : KeyMode} {f : Flc} (made : s.flc.keyEdit s.floorEnv s.settings x k edge m = f) (told : f.emptyTold = s.flc.emptyTold) :
    ∃ t, exec (.keyEvent x k edge m) s = .next t ∧ FloorBecomes .keyEvent s t f :=
  ⟨_, exec_keyEvent_heard hears part k edge m, floorBecomes_edit made told _ (chimeOf_follows s.flc x k edge)⟩

theorem keyEvent_stays {s : State} {x : Seat} (hears : s.flc.hears = true) (part : s.flc.takesPart x = true) {k : Key} {edge : KeyEdge}
    {m : KeyMode} (made : s.flc.keyEdit s.floorEnv s.settings x k edge m = s.flc) :
    ∃ t, exec (.keyEvent x k edge m) s = .next t ∧ FloorStays .keyEvent s t :=
  ⟨_, exec_keyEvent_heard hears part k edge m, floorStays_edit made _ (chimeOf_follows s.flc x k edge)⟩

theorem keyEdit_mic {f : Flc} (mode : f.mode ≠ .voice) (e : FloorEnv) (st : Settings) (x : Seat) (edge : KeyEdge) (m : KeyMode) :
    f.keyEdit e st x .mic edge m = f.micEvent e st x edge m := if_neg mode

theorem keyEdit_micVoice {f : Flc} (mode : f.mode = .voice) (e : FloorEnv) (st : Settings) (x : Seat) (edge : KeyEdge) (m : KeyMode) :
    f.keyEdit e st x .mic edge m = f.micEventVoice x edge m := if_pos mode

section
variable {f : Flc} {x : Seat} {e : FloorEnv} {st : Settings}

theorem micEvent_speaking (speaks : f.speaks x = true) (edge : KeyEdge) (m : KeyMode) : f.micEvent e st x edge m =
    match m, edge with
    | .toggle, .press => f.closeSeat x
    | .pushToTalk, .release => f.closeSeat x
    | _, _ => f := if_pos speaks

theorem micEvent_waiting {q : QueueEntry} (silent : f.speaks x = false) (waits : f.queue.find? (fun d => d.seat = x) = some q) (edge : KeyEdge)
    (m : KeyMode) : f.micEvent e st x edge m =
      match m, edge with
      | _, .press => f.withdraw x
      | .pushToTalk, .release => if q.origin = .key then f.withdraw x else f
      | .toggle, .release => f := by
  unfold Flc.micEvent
  rw [if_neg (by simp [silent]), waits] <;> rfl

theorem micEvent_idle (silent : f.speaks x = false) (idle : f.waits x = false) (edge : KeyEdge) (m : KeyMode) :
    f.micEvent e st x edge m = if edge = .press then f.ask e st x else f := by
  have unfound : f.queue.find? (fun d => d.seat = x) = none := by
    rw [List.find?_eq_none]
    simpa [Flc.waits] using idle
  unfold Flc.micEvent
  rw [if_neg (by simp [silent]), unfound]

theorem find_waiting (waits : f.waits x = true) : ∃ q, f.queue.find? (fun d => d.seat = x) = some q := by
  rw [← Option.isSome_iff_exists, List.find?_isSome]
  simpa [Flc.waits] using waits

end

theorem ask_open {s : State} {x : Seat} (mode : s.flc.mode = .openMode) : s.flc.ask s.floorEnv s.settings x =
    if s.flc.hasRoom && !(s.flc.holds s.settings.priorityPolicy && !hasPriority (s.flc.role x)) then s.flc.openSeat s.floorEnv x .key
    else match s.settings.overflow with
      | .deny => s.flc.refuse x
      | .queue => s.flc.enqueueOrRefuse s.floorEnv x .key
      | .bump => if s.flc.holds s.settings.priorityPolicy && !hasPriority (s.flc.role x) then s.flc.enqueueOrRefuse s.floorEnv x .key
        else s.flc.evict.openSeat s.floorEnv x .key := by
  unfold Flc.ask
  rw [mode] <;> rfl

theorem ask_queues {s : State} {x : Seat} (mode : s.flc.mode ≠ .openMode) :
    s.flc.ask s.floorEnv s.settings x = s.flc.enqueueOrRefuse s.floorEnv x .key := by
  unfold Flc.ask
  split
  · rename_i mode'
    exact absurd mode' mode
  · rfl

/-! ## The eviction order (R23) -/

theorem victim_ordinary {f : Flc} {e : SpeakerEntry} (found : f.speakers.find? (fun d => !d.priority) = some e) : f.victim = some e.seat := by
  rw [Flc.victim, found]

theorem find_ordinary_none {f : Flc} (priority : ∀ e ∈ f.speakers, e.priority = true) : f.speakers.find? (fun d => !d.priority) = none :=
  List.find?_eq_none.mpr fun e mem => by simp [priority e mem]

theorem victim_vice {f : Flc} {e : SpeakerEntry} (priority : ∀ e ∈ f.speakers, e.priority = true)
    (found : f.speakers.find? (fun d => f.role d.seat = .vice) = some e) : f.victim = some e.seat := by
  unfold Flc.victim
  rw [find_ordinary_none priority, found]

theorem victim_chair {f : Flc} {e : SpeakerEntry} (priority : ∀ e ∈ f.speakers, e.priority = true) (noVice : ∀ e ∈ f.speakers, f.role e.seat ≠ .vice)
    (found : f.speakers.find? (fun d => f.role d.seat = .chair) = some e) : f.victim = some e.seat := by
  have none_vice : f.speakers.find? (fun d => f.role d.seat = .vice) = none := List.find?_eq_none.mpr fun e mem => by simpa using noVice e mem
  unfold Flc.victim
  rw [find_ordinary_none priority, none_vice, found]
  rfl

theorem exec_keyEvent_unheard {s : State} {x : Seat} (unheard : s.flc.hears = false ∨ s.flc.takesPart x = false) (k : Key) (edge : KeyEdge)
    (m : KeyMode) : exec (.keyEvent x k edge m) s = .next (Taken (.keyEvent x k edge m) s) :=
  next_congr (if_neg fun ⟨hears, part⟩ => unheard.elim (fun h => Bool.false_ne_true (h.symm.trans hears)) fun h => Bool.false_ne_true (h.symm.trans part))

section
variable {s : State} {x : Seat} {m : KeyMode}

theorem keyEdit_asks (mode : s.flc.mode ≠ .voice) (silent : s.flc.speaks x = false) (idle : s.flc.waits x = false) :
    s.flc.keyEdit s.floorEnv s.settings x .mic .press m = s.flc.ask s.floorEnv s.settings x := by
  rw [keyEdit_mic mode, micEvent_idle silent idle, if_pos rfl]

theorem ask_opens (openMode : s.flc.mode = .openMode) (room : s.flc.speakers.length < s.flc.limit) (free : ¬ KeptBack s x) :
    s.flc.ask s.floorEnv s.settings x = s.flc.openSeat s.floorEnv x .key := by
  rw [ask_open openMode, if_pos]
  rw [Bool.and_eq_true, hasRoom_iff, Bool.not_eq_true', ← Bool.not_eq_true, keptBack_iff]
  exact ⟨room, free⟩

/-- Without room, or kept back, the overflow policy decides (R26). -/
theorem ask_overflows (openMode : s.flc.mode = .openMode) (full : s.flc.limit ≤ s.flc.speakers.length ∨ KeptBack s x) :
    s.flc.ask s.floorEnv s.settings x = match s.settings.overflow with
      | .deny => s.flc.refuse x
      | .queue => s.flc.enqueueOrRefuse s.floorEnv x .key
      | .bump => if s.flc.holds s.settings.priorityPolicy && !hasPriority (s.flc.role x) then s.flc.enqueueOrRefuse s.floorEnv x .key
        else s.flc.evict.openSeat s.floorEnv x .key := by
  rw [ask_open openMode, if_neg]
  rw [Bool.and_eq_true, hasRoom_iff, Bool.not_eq_true', ← Bool.not_eq_true, keptBack_iff]
  exact fun ⟨room, free⟩ => full.elim (fun h => Nat.not_le.mpr room h) free

theorem ask_denied (openMode : s.flc.mode = .openMode) (full : s.flc.limit ≤ s.flc.speakers.length ∨ KeptBack s x)
    (deny : s.settings.overflow = .deny) : s.flc.ask s.floorEnv s.settings x = s.flc.refuse x := by
  rw [ask_overflows openMode full, deny]

theorem ask_queued (openMode : s.flc.mode = .openMode) (full : s.flc.limit ≤ s.flc.speakers.length ∨ KeptBack s x)
    (queue : s.settings.overflow = .queue ∨ (s.settings.overflow = .bump ∧ KeptBack s x)) :
    s.flc.ask s.floorEnv s.settings x = s.flc.enqueueOrRefuse s.floorEnv x .key := by
  rw [ask_overflows openMode full]
  obtain queue | ⟨bump, held⟩ := queue
  · rw [queue]
  · rw [bump]
    exact if_pos (keptBack_iff.mpr held)

theorem ask_bumps (openMode : s.flc.mode = .openMode) (full : s.flc.limit ≤ s.flc.speakers.length ∨ KeptBack s x)
    (bump : s.settings.overflow = .bump) (free : ¬ KeptBack s x) :
    s.flc.ask s.floorEnv s.settings x = s.flc.evict.openSeat s.floorEnv x .key := by
  rw [ask_overflows openMode full, bump]
  exact if_neg fun held => free (keptBack_iff.mp held)

end

/-- Settles O11. -/
theorem micPressOutsideVoiceMode : Obligations.MicPressOutsideVoiceMode := by
  intro x m s
  refine ⟨fun unheard k edge => exec_keyEvent_unheard unheard k edge m,
    fun hears part mode => ⟨fun silent idle openMode room free => keyEvent_becomes hears part ?opens rfl,
    fun silent idle openMode full => ⟨fun deny => keyEvent_becomes hears part ?deny rfl,
      fun queue => ⟨fun room => keyEvent_becomes hears part ?queues rfl, fun crowded => keyEvent_becomes hears part ?crowded rfl⟩,
      fun bump free v victim => keyEvent_becomes hears part ?bump rfl⟩,
    fun silent idle other room => keyEvent_becomes hears part ?joins rfl, fun silent idle other crowded => keyEvent_becomes hears part ?crowdedOther rfl,
    fun speaks toggle => keyEvent_becomes hears part ?closes rfl,
    fun speaks ptt => ⟨keyEvent_stays hears part ?holds, keyEvent_becomes hears part ?releases rfl⟩,
    fun silent waits => keyEvent_becomes hears part ?withdraws rfl,
    fun q silent waits ptt => ⟨fun key => keyEvent_becomes hears part ?withdrawn rfl, fun other => keyEvent_stays hears part ?waitsOn⟩,
    fun silent idle => keyEvent_stays hears part ?nothing, fun toggle => keyEvent_stays hears part ?toggled⟩,
    fun e => victim_ordinary, fun priority => ⟨fun e => victim_vice priority, fun noVice e => victim_chair priority noVice⟩⟩
  case opens => rw [keyEdit_asks mode silent idle, ask_opens openMode room free, openSeat_idle idle]
  case deny => exact (keyEdit_asks mode silent idle).trans (ask_denied openMode full deny)
  case queues => exact (keyEdit_asks mode silent idle).trans ((ask_queued openMode full queue).trans (enqueueOrRefuse_room room))
  case crowded => exact (keyEdit_asks mode silent idle).trans ((ask_queued openMode full queue).trans (enqueueOrRefuse_full crowded))
  case bump => rw [keyEdit_asks mode silent idle, ask_bumps openMode full bump free, evict_openSeat idle victim]
  case joins => exact (keyEdit_asks mode silent idle).trans ((ask_queues other).trans (enqueueOrRefuse_room room))
  case crowdedOther => exact (keyEdit_asks mode silent idle).trans ((ask_queues other).trans (enqueueOrRefuse_full crowded))
  case closes =>
    subst toggle
    exact (keyEdit_mic mode ..).trans (micEvent_speaking speaks .press .toggle)
  case holds =>
    subst ptt
    exact (keyEdit_mic mode ..).trans (micEvent_speaking speaks .press .pushToTalk)
  case releases =>
    subst ptt
    exact (keyEdit_mic mode ..).trans (micEvent_speaking speaks .release .pushToTalk)
  case withdraws =>
    obtain ⟨q, found⟩ := find_waiting waits
    exact (keyEdit_mic mode ..).trans ((micEvent_waiting silent found .press m).trans (by cases m <;> rfl))
  case withdrawn =>
    subst ptt
    exact (keyEdit_mic mode ..).trans ((micEvent_waiting silent waits .release .pushToTalk).trans (if_pos key))
  case waitsOn =>
    subst ptt
    exact (keyEdit_mic mode ..).trans ((micEvent_waiting silent waits .release .pushToTalk).trans (if_neg other))
  case nothing => exact (keyEdit_mic mode ..).trans ((micEvent_idle silent idle .release m).trans (if_neg nofun))
  case toggled =>
    subst toggle
    rw [keyEdit_mic mode]
    cases speaks : s.flc.speaks x with
    | true => exact micEvent_speaking speaks .release .toggle
    | false =>
      cases waits : s.flc.waits x with
      | true =>
        obtain ⟨q, found⟩ := find_waiting waits
        exact micEvent_waiting speaks found .release .toggle
      | false => exact (micEvent_idle speaks waits .release .toggle).trans (if_neg nofun)

/-! ## The keys of the chair (R30 to R32) -/

theorem endsWith_emit {c : Instr} {s u : State} (before : (s.taking c).flight <+: u.flight) (i : Instr) : SentSome c s (u.emit [i]) (EndsWith i) := by
  obtain ⟨out, sent⟩ := before
  refine ⟨out ++ [i], ?_, List.getLast?_concat⟩
  rw [Sent, State.emit_flight, ← sent, List.append_assoc]
  rfl

theorem floorEdit_prefix (cause : FloorCause) (s : State) (edit : Flc → Flc) : s.flight <+: (s.floorEdit cause edit).flight := by
  obtain ⟨out, sent⟩ := floorChange_flight cause s { s with flc := edit s.flc }
  exact ⟨out, sent.symm⟩

section
variable {s : State} {x : Seat} {m : KeyMode}

/-- A PRIORITY press asks for the chime behind the results (R31). -/
theorem priority_becomes (hears : s.flc.hears = true) (part : s.flc.takesPart x = true) (priority : hasPriority (s.flc.role x) = true) {f : Flc}
    (made : s.flc.beginOverride s.floorEnv s.settings.priorityPolicy x = f) (told : f.emptyTold = s.flc.emptyTold) :
    ∃ t, exec (.keyEvent x .priority .press m) s = .next t ∧ FloorBecomes .keyEvent s t f ∧
      SentSome (.keyEvent x .priority .press m) s t (EndsWith .chimeRequest) := by
  have edit : s.flc.keyEdit s.floorEnv s.settings x .priority .press m = f := (if_pos priority).trans made
  have chime : chimeOf s.flc x .priority .press = [.chimeRequest] := if_pos ⟨rfl, rfl, part, priority⟩
  have run := exec_keyEvent_heard hears part .priority .press m
  rw [chime] at run
  exact ⟨_, run, floorBecomes_edit edit told _ (by simp [FollowsFloor]), endsWith_emit (floorEdit_prefix _ (s.taking _) _) _⟩

/-- Under CLOSE-ALL an override leaves the priority entries alone (R31). -/
def leftSpeakers (policy : PriorityPolicy) (l : List SpeakerEntry) : List SpeakerEntry := if policy = .closeAll then l.filter (·.priority) else l

/-- A seat joins the override set and leaves the queue (R31). -/
def Flc.joinOverride (x : Seat) (f : Flc) : Flc := { f with overrides := f.overrides ++ [x] }.withdraw x

theorem beginOverride_eq (f : Flc) (e : FloorEnv) (policy : PriorityPolicy) (x : Seat) (fresh : x ∉ f.overrides) :
    ∃ g, g = (if (f.joinOverride x).speaks x then f.joinOverride x
        else (if (f.joinOverride x).hasRoom then f.joinOverride x else (f.joinOverride x).evict).openSeat e x .priority) ∧
      f.beginOverride e policy x = { g with speakers := leftSpeakers policy g.speakers } := by
  refine ⟨_, rfl, ?_⟩
  unfold Flc.beginOverride
  rw [if_neg fresh]
  dsimp only
  rw [← Flc.joinOverride]
  unfold leftSpeakers
  generalize (if (f.joinOverride x).speaks x = true then f.joinOverride x else _) = g
  split <;> rfl

theorem filter_twice (l : List QueueEntry) (x : Seat) : ((l.filter fun q => q.seat ≠ x).filter fun q => q.seat ≠ x) = l.filter fun q => q.seat ≠ x := by
  simp [List.filter_filter]

theorem beginOverride_speaking (speaks : s.flc.speaks x = true) (idle : s.flc.waits x = false) (fresh : x ∉ s.flc.overrides) :
    s.flc.beginOverride s.floorEnv s.settings.priorityPolicy x = { s.flc with
      overrides := s.flc.overrides ++ [x], speakers := leftSpeakers s.settings.priorityPolicy s.flc.speakers } := by
  obtain ⟨g, made, begun⟩ := beginOverride_eq s.flc s.floorEnv s.settings.priorityPolicy x fresh
  have speaks' : (s.flc.joinOverride x).speaks x = true := speaks
  have same : Flc.withdraw x { s.flc with overrides := s.flc.overrides ++ [x] } = { s.flc with overrides := s.flc.overrides ++ [x] } := by
    rw [Flc.withdraw, queue_without (f := { s.flc with overrides := s.flc.overrides ++ [x] }) idle]
  rw [if_pos speaks'] at made
  rw [begun, made, Flc.joinOverride, same]

theorem beginOverride_opens (silent : s.flc.speaks x = false) (fresh : x ∉ s.flc.overrides) (room : s.flc.speakers.length < s.flc.limit) :
    s.flc.beginOverride s.floorEnv s.settings.priorityPolicy x = { s.flc with
      overrides := s.flc.overrides ++ [x]
      speakers := leftSpeakers s.settings.priorityPolicy (s.flc.speakers ++ [newEntry s x .priority])
      queue := s.flc.queue.filter fun q => q.seat ≠ x
      seats := s.flc.seats.upd x { s.flc.seats.get x with selfMuted := false, flash := none } } := by
  have silent' : (s.flc.joinOverride x).speaks x = false := silent
  have room' : (s.flc.joinOverride x).hasRoom = true := hasRoom_iff.mpr room
  have opened : (s.flc.joinOverride x).openSeat s.floorEnv x .priority = { s.flc with
      overrides := s.flc.overrides ++ [x], speakers := s.flc.speakers ++ [newEntry s x .priority]
      queue := (s.flc.queue.filter fun q => q.seat ≠ x).filter fun q => q.seat ≠ x
      seats := s.flc.seats.upd x { s.flc.seats.get x with selfMuted := false, flash := none } } := rfl
  obtain ⟨g, made, begun⟩ := beginOverride_eq s.flc s.floorEnv s.settings.priorityPolicy x fresh
  rw [if_neg (by simp [silent']), if_pos room', opened, filter_twice] at made
  rw [begun, made]

theorem beginOverride_evicts {v : Seat} (silent : s.flc.speaks x = false) (fresh : x ∉ s.flc.overrides) (full : s.flc.limit ≤ s.flc.speakers.length)
    (victim : s.flc.victim = some v) : s.flc.beginOverride s.floorEnv s.settings.priorityPolicy x = { s.flc with
      overrides := (s.flc.overrides ++ [x]).filter fun y => y ≠ v
      speakers := leftSpeakers s.settings.priorityPolicy ((s.flc.speakers.filter fun e => e.seat ≠ v) ++ [newEntry s x .priority])
      queue := s.flc.queue.filter fun q => q.seat ≠ x
      seats := s.flc.seats.upd x { s.flc.seats.get x with selfMuted := false, flash := none } } := by
  have silent' : (s.flc.joinOverride x).speaks x = false := silent
  have full' : (s.flc.joinOverride x).hasRoom = false := hasRoom_false_iff.mpr full
  have victim' : (s.flc.joinOverride x).victim = some v := victim
  have opened : ((s.flc.joinOverride x).closeSeat v).openSeat s.floorEnv x .priority = { s.flc with
      overrides := (s.flc.overrides ++ [x]).filter fun y => y ≠ v
      speakers := (s.flc.speakers.filter fun e => e.seat ≠ v) ++ [newEntry s x .priority]
      queue := (s.flc.queue.filter fun q => q.seat ≠ x).filter fun q => q.seat ≠ x
      seats := s.flc.seats.upd x { s.flc.seats.get x with selfMuted := false, flash := none } } := rfl
  obtain ⟨g, made, begun⟩ := beginOverride_eq s.flc s.floorEnv s.settings.priorityPolicy x fresh
  rw [if_neg (by simp [silent']), if_neg (by simp [full']), evict_eq victim', opened, filter_twice] at made
  rw [begun, made]

theorem grantHead_opens {q : QueueEntry} {rest : List QueueEntry} (queue : s.flc.queue = q :: rest) (room : s.flc.speakers.length < s.flc.limit) :
    s.flc.grantHead s.floorEnv x = s.flc.openSeat s.floorEnv q.seat (if q.origin = .voice then .voice else .next) := by
  unfold Flc.grantHead
  rw [queue]
  exact if_pos (hasRoom_iff.mpr room)

theorem grantHead_refuses (none_or_full : s.flc.queue = [] ∨ s.flc.limit ≤ s.flc.speakers.length) : s.flc.grantHead s.floorEnv x = s.flc.refuse x := by
  unfold Flc.grantHead
  split
  · rfl
  · rename_i q rest queue
    obtain empty | full := none_or_full
    · cases queue.symm.trans empty
    · exact if_neg (by simp [hasRoom_false_iff.mpr full])

end

/-- Settles O12. -/
theorem keysOfTheChair : Obligations.KeysOfTheChair := by
  intro x m s hears part
  refine ⟨fun priority speaks idle fresh => priority_becomes hears part priority (beginOverride_speaking speaks idle fresh) rfl,
    fun priority silent fresh room => priority_becomes hears part priority (beginOverride_opens silent fresh room) rfl,
    fun v priority silent fresh full victim => priority_becomes hears part priority (beginOverride_evicts silent fresh full victim) rfl,
    keyEvent_becomes hears part rfl rfl, fun q rest priority queue room => keyEvent_becomes hears part ?next rfl,
    fun priority unopened => keyEvent_becomes hears part ?refused rfl, fun ordinary k key => keyEvent_stays hears part ?ordinary⟩
  case next => exact (if_pos ⟨rfl, priority⟩).trans ((grantHead_opens queue room).trans (openSeat_eq ..))
  case refused => exact (if_pos ⟨rfl, priority⟩).trans (grantHead_refuses unopened)
  case ordinary =>
    obtain rfl | rfl := key
    · exact if_neg (by simp [ordinary])
    · exact if_neg (by simp [ordinary])

end Sys2Proof.Machine
end

section
/-! PROOF. Voice reports, timers and reports at the floor, and the floor's commands (sections 2.5, 2.7, 2.10 and 2.12). -/

namespace Sys2Proof.Machine

open Sys2Proof

theorem floorStays_only {cause : FloorCause} {s : State} {c : Instr} {edit : Flc → Flc} (made : edit s.flc = s.flc) :
    FloorStays cause s ((s.taking c).floorEdit cause edit) := by
  have stays := floorStays_edit (cause := cause) (c := c) made [] (by simp)
  rw [emit_nil] at stays
  exact stays

/-! ## VOICE mode (R27, R28) -/

section
variable {s : State} {x : Seat} {m : KeyMode}

/-- The seat speaks with an origin other than VOICE. -/
def SpeaksOtherwise (f : Flc) (x : Seat) : Prop := ∃ e ∈ f.speakers, e.seat = x ∧ e.origin ≠ .voice

/-- The seat waits with origin PORT. -/
def WaitsByPort (f : Flc) (x : Seat) : Prop := ∃ q ∈ f.queue, q.seat = x ∧ q.origin = .port

theorem speaksOtherwise_iff {f : Flc} : f.speakers.any (fun e => e.seat = x && e.origin ≠ .voice) = true ↔ SpeaksOtherwise f x := by
  simp [SpeaksOtherwise]

theorem waitsByPort_iff {f : Flc} : f.queue.any (fun q => q.seat = x && q.origin = .port) = true ↔ WaitsByPort f x := by
  simp [WaitsByPort]

theorem notOtherwise {f : Flc} (voice : ∀ e ∈ f.speakers, e.seat = x → e.origin = .voice) : ¬ SpeaksOtherwise f x := fun ⟨e, mem, seat, other⟩ =>
  other (voice e mem seat)

theorem notByPort {f : Flc} (other : ∀ q ∈ f.queue, q.seat = x → q.origin ≠ .port) : ¬ WaitsByPort f x := fun ⟨q, mem, seat, port⟩ =>
  other q mem seat port

theorem micEventVoice_otherwise {f : Flc} (otherwise : SpeaksOtherwise f x) (edge : KeyEdge) (m : KeyMode) : f.micEventVoice x edge m =
    match m, edge with
    | .toggle, .press => f.closeSeat x
    | .pushToTalk, .release => f.closeSeat x
    | _, _ => f := if_pos (speaksOtherwise_iff.mpr otherwise)

theorem micEventVoice_byPort {f : Flc} (voice : ¬ SpeaksOtherwise f x) (port : WaitsByPort f x) (edge : KeyEdge) (m : KeyMode) :
    f.micEventVoice x edge m = if edge = .press then f.withdraw x else f :=
  (if_neg fun h => voice (speaksOtherwise_iff.mp h)).trans (if_pos (waitsByPort_iff.mpr port))

theorem micEventVoice_toggles {f : Flc} (voice : ¬ SpeaksOtherwise f x) (noPort : ¬ WaitsByPort f x) (edge : KeyEdge) (m : KeyMode) :
    f.micEventVoice x edge m = if edge = .press then f.toggleSelfMute x else f :=
  (if_neg fun h => voice (speaksOtherwise_iff.mp h)).trans (if_neg fun h => noPort (waitsByPort_iff.mp h))

theorem toggleSelfMute_off {f : Flc} (muted : (f.seats.get x).selfMuted = true) :
    f.toggleSelfMute x = { f with seats := f.seats.upd x { f.seats.get x with selfMuted := false } } := if_pos muted

theorem toggleSelfMute_on {f : Flc} (unmuted : (f.seats.get x).selfMuted = false) : f.toggleSelfMute x =
    let f1 := if f.speakers.any (fun e => e.seat = x && e.origin = .voice) then f.closeSeat x else f
    { f1 with
      queue := f1.queue.filter fun q => !(q.seat = x && q.origin = .voice)
      seats := f1.seats.upd x { f1.seats.get x with selfMuted := true } } := if_neg (by simp [unmuted])

theorem voiceQueue_idle {f : Flc} (idle : f.waits x = false) : (f.queue.filter fun q => !(q.seat = x && q.origin = .voice)) = f.queue := by
  rw [List.filter_eq_self]
  intro q mem
  simp only [Flc.waits, List.any_eq_false, decide_eq_true_eq] at idle
  simp [idle q mem]

theorem toggleSelfMute_speaker {f : Flc} (unmuted : (f.seats.get x).selfMuted = false) (speaks : f.speaks x = true) (voice : ¬ SpeaksOtherwise f x)
    (idle : f.waits x = false) : f.toggleSelfMute x = { f with
      speakers := f.speakers.filter fun e => e.seat ≠ x
      overrides := f.overrides.filter fun y => y ≠ x
      seats := f.seats.upd x { f.seats.get x with selfMuted := true } } := by
  have byVoice : f.speakers.any (fun e => e.seat = x && e.origin = .voice) = true := by
    obtain ⟨e, mem, seat⟩ := speaks_iff.mp speaks
    have origin : e.origin = .voice := by
      by_contra other
      exact voice ⟨e, mem, seat, other⟩
    exact List.any_eq_true.mpr ⟨e, mem, by simp [seat, origin]⟩
  have queue : ((f.closeSeat x).queue.filter fun q => !(q.seat = x && q.origin = .voice)) = f.queue := voiceQueue_idle idle
  rw [toggleSelfMute_on unmuted, byVoice]
  simp only [if_true]
  rw [queue]
  rfl

theorem toggleSelfMute_silent {f : Flc} (unmuted : (f.seats.get x).selfMuted = false) (silent : f.speaks x = false) : f.toggleSelfMute x = { f with
      queue := f.queue.filter fun q => !(q.seat = x && q.origin = .voice)
      seats := f.seats.upd x { f.seats.get x with selfMuted := true } } := by
  have notByVoice : f.speakers.any (fun e => e.seat = x && e.origin = .voice) = false := by
    simp only [Flc.speaks, List.any_eq_false, decide_eq_true_eq] at silent
    rw [List.any_eq_false]
    intro e mem
    simp [silent e mem]
  rw [toggleSelfMute_on unmuted, notByVoice]
  rfl

theorem exec_voiceOnset_heard (hears : s.flc.hears = true) (mode : s.flc.mode = .voice) (part : s.flc.takesPart x = true)
    (unmuted : (s.flc.seats.get x).selfMuted = false) : exec (.voiceOnset x) s =
      .next ((s.taking (.voiceOnset x)).floorEdit .voiceReport (Flc.onset s.floorEnv s.settings x)) :=
  next_congr (if_pos ⟨hears, mode, part, unmuted⟩)

theorem exec_voiceOnset_ignored (ignored : ¬ (s.flc.hears = true ∧ s.flc.mode = .voice ∧ s.flc.takesPart x = true ∧ (s.flc.seats.get x).selfMuted = false)) :
    exec (.voiceOnset x) s = .next (Taken (.voiceOnset x) s) :=
  next_congr (if_neg ignored)

theorem exec_voiceEnd_heard (hears : s.flc.hears = true) (mode : s.flc.mode = .voice) :
    exec (.voiceEnd x) s = .next ((s.taking (.voiceEnd x)).floorEdit .voiceReport (Flc.voiceEnds x)) :=
  next_congr (if_pos ⟨hears, mode⟩)

theorem exec_voiceEnd_ignored (ignored : ¬ (s.flc.hears = true ∧ s.flc.mode = .voice)) : exec (.voiceEnd x) s = .next (Taken (.voiceEnd x) s) :=
  next_congr (if_neg ignored)

theorem onset_stays (placed : s.flc.speaks x = true ∨ s.flc.waits x = true) : s.flc.onset s.floorEnv s.settings x = s.flc :=
  if_pos (by simpa using placed)

theorem onset_eq (silent : s.flc.speaks x = false) (idle : s.flc.waits x = false) : s.flc.onset s.floorEnv s.settings x =
    if s.flc.hasRoom && !(s.flc.holds s.settings.priorityPolicy && !hasPriority (s.flc.role x)) then s.flc.openSeat s.floorEnv x .voice
    else s.flc.enqueueOrRefuse s.floorEnv x .voice := if_neg (by simp [silent, idle])

theorem onset_opens (silent : s.flc.speaks x = false) (idle : s.flc.waits x = false) (room : s.flc.speakers.length < s.flc.limit)
    (free : ¬ KeptBack s x) : s.flc.onset s.floorEnv s.settings x = s.flc.openSeat s.floorEnv x .voice := by
  rw [onset_eq silent idle, if_pos]
  rw [Bool.and_eq_true, hasRoom_iff, Bool.not_eq_true', ← Bool.not_eq_true, keptBack_iff]
  exact ⟨room, free⟩

theorem onset_queues (silent : s.flc.speaks x = false) (idle : s.flc.waits x = false) (full : s.flc.limit ≤ s.flc.speakers.length ∨ KeptBack s x) :
    s.flc.onset s.floorEnv s.settings x = s.flc.enqueueOrRefuse s.floorEnv x .voice := by
  rw [onset_eq silent idle, if_neg]
  rw [Bool.and_eq_true, hasRoom_iff, Bool.not_eq_true', ← Bool.not_eq_true, keptBack_iff]
  exact fun ⟨room, free⟩ => full.elim (fun h => Nat.not_le.mpr room h) free

theorem unheard_mode (unheard : s.flc.hears = false ∨ s.flc.mode ≠ .voice) : ¬ (s.flc.hears = true ∧ s.flc.mode = .voice) := fun ⟨hears, mode⟩ =>
  unheard.elim (fun h => Bool.false_ne_true (h.symm.trans hears)) fun h => h mode

theorem voiceEnds_closes {f : Flc} (voice : ∃ e ∈ f.speakers, e.seat = x ∧ e.origin = .voice) : f.voiceEnds x = f.closeSeat x :=
  if_pos (by simpa using voice)

theorem voiceEnds_withdraws {f : Flc} (other : ∀ e ∈ f.speakers, e.seat = x → e.origin ≠ .voice) : f.voiceEnds x =
    { f with queue := f.queue.filter fun q => !(q.seat = x && q.origin = .voice) } :=
  if_neg (by simpa using other)

end

/-- Settles O13. -/
theorem voiceModeMovesTheFloor : Obligations.VoiceModeMovesTheFloor := by
  intro x m s
  refine ⟨fun hears mode part => ⟨fun otherwise => ⟨fun toggle => ⟨keyEvent_becomes hears part ?closes rfl, keyEvent_stays hears part ?stays⟩,
      fun ptt => ⟨keyEvent_stays hears part ?held, keyEvent_becomes hears part ?released rfl⟩⟩,
    fun voice port => ⟨keyEvent_becomes hears part ?withdraws rfl, keyEvent_stays hears part ?waitsOn⟩,
    fun voice noPort => ⟨keyEvent_stays hears part ?unpressed, fun muted => keyEvent_becomes hears part ?unmutes rfl,
      fun unmuted speaks idle => keyEvent_becomes hears part ?mutesSpeaker rfl, fun unmuted silent => keyEvent_becomes hears part ?mutes rfl⟩,
    fun unmuted => ⟨fun placed => ⟨_, exec_voiceOnset_heard hears mode part unmuted, floorStays_only (onset_stays placed)⟩,
      fun silent idle => ⟨fun room free => ⟨_, exec_voiceOnset_heard hears mode part unmuted, floorBecomes_only ?opens rfl⟩,
        fun full room => ⟨_, exec_voiceOnset_heard hears mode part unmuted, floorBecomes_only ?queues rfl⟩,
        fun full crowded => ⟨_, exec_voiceOnset_heard hears mode part unmuted, floorBecomes_only ?refuses rfl⟩⟩⟩⟩,
    fun hears mode voice => ⟨_, exec_voiceEnd_heard hears mode, floorBecomes_only (voiceEnds_closes voice) rfl⟩,
    fun hears mode other => ⟨_, exec_voiceEnd_heard hears mode, floorBecomes_only (voiceEnds_withdraws other) rfl⟩,
    fun unheard => ⟨exec_voiceOnset_ignored fun ⟨hears, mode, _⟩ => unheard_mode unheard ⟨hears, mode⟩, exec_voiceEnd_ignored (unheard_mode unheard)⟩,
    fun ignored => exec_voiceOnset_ignored fun ⟨_, _, part, unmuted⟩ => ?ignored⟩
  case closes =>
    subst toggle
    exact (keyEdit_micVoice mode ..).trans (micEventVoice_otherwise otherwise .press .toggle)
  case stays =>
    subst toggle
    exact (keyEdit_micVoice mode ..).trans (micEventVoice_otherwise otherwise .release .toggle)
  case held =>
    subst ptt
    exact (keyEdit_micVoice mode ..).trans (micEventVoice_otherwise otherwise .press .pushToTalk)
  case released =>
    subst ptt
    exact (keyEdit_micVoice mode ..).trans (micEventVoice_otherwise otherwise .release .pushToTalk)
  case withdraws => exact (keyEdit_micVoice mode ..).trans ((micEventVoice_byPort (notOtherwise voice) port .press m).trans (if_pos rfl))
  case waitsOn => exact (keyEdit_micVoice mode ..).trans ((micEventVoice_byPort (notOtherwise voice) port .release m).trans (if_neg nofun))
  case unpressed =>
    exact (keyEdit_micVoice mode ..).trans ((micEventVoice_toggles (notOtherwise voice) (notByPort noPort) .release m).trans (if_neg nofun))
  case unmutes =>
    exact (keyEdit_micVoice mode ..).trans ((micEventVoice_toggles (notOtherwise voice) (notByPort noPort) .press m).trans
      ((if_pos rfl).trans (toggleSelfMute_off muted)))
  case mutesSpeaker =>
    exact (keyEdit_micVoice mode ..).trans ((micEventVoice_toggles (notOtherwise voice) (notByPort noPort) .press m).trans
      ((if_pos rfl).trans (toggleSelfMute_speaker unmuted speaks (notOtherwise voice) idle)))
  case mutes =>
    exact (keyEdit_micVoice mode ..).trans ((micEventVoice_toggles (notOtherwise voice) (notByPort noPort) .press m).trans
      ((if_pos rfl).trans (toggleSelfMute_silent unmuted silent)))
  case opens => exact (onset_opens silent idle room free).trans (openSeat_idle idle .voice)
  case queues => exact (onset_queues silent idle full).trans (enqueueOrRefuse_room room)
  case refuses => exact (onset_queues silent idle full).trans (enqueueOrRefuse_full crowded)
  case ignored =>
    obtain out | muted := ignored
    · exact Bool.false_ne_true (out.symm.trans part)
    · exact Bool.false_ne_true (unmuted.symm.trans muted)

/-! ## Timers (R29, R34, R35) -/

theorem floorBecomes_raised {cause : FloorCause} {s : State} {edit : Flc → Flc} {f : Flc} (made : edit s.flc = f)
    (told : f.emptyTold = s.flc.emptyTold) : FloorBecomes cause s (s.floorEdit cause edit) f := by
  refine floorBecomesUnder_change (l := s.flight) (more := []) (.inl rfl) told (by simp) ?_
  rw [emit_nil, State.floorEdit, made]
  rfl

theorem overtime_of_due (e : SpeakerEntry) : (if e.due then { e with overtime := true } else e) =
    { e with overtime := e.overtime || (e.remaining = some 0 && !e.priority) } := by
  obtain ⟨seat, origin, day, second, remaining, priority, overtime⟩ := e
  cases overtime <;> cases priority <;> simp [SpeakerEntry.due]
  split <;> simp_all

theorem expire_warn (f : Flc) : f.expire .warn = { f with speakers := f.speakers.map fun e =>
    { e with overtime := e.overtime || (e.remaining = some 0 && !e.priority) } } := by
  have overtime : f.expire .warn = { f with speakers := f.speakers.map fun e => if e.due then { e with overtime := true } else e } := rfl
  rw [overtime, funext overtime_of_due]

/-- Closing the seats of the due entries of a list, one after another. -/
theorem closeDue_eq (l : List SpeakerEntry) (f : Flc) : l.foldl (fun g e => if e.due then g.closeSeat e.seat else g) f = { f with
    speakers := f.speakers.filter fun e => !(l.any fun d => d.due && d.seat = e.seat)
    overrides := f.overrides.filter fun y => !(l.any fun d => d.due && d.seat = y) } := by
  induction l generalizing f with
  | nil => simp
  | cons d l ih =>
    rw [List.foldl_cons, ih]
    cases due : d.due with
    | true => simp [Flc.closeSeat, List.filter_filter, due, Bool.and_comm, eq_comm]
    | false => simp [due]

theorem ticked_eq (e : SpeakerEntry) : e.ticked = match e.remaining, e.priority with
    | some (n + 1), false => { e with remaining := some n }
    | _, _ => e := by
  obtain ⟨seat, origin, day, second, remaining, priority, overtime⟩ := e
  cases remaining with
  | none => rfl
  | some n => cases n <;> cases priority <;> rfl

theorem still_ticked (e : SpeakerEntry) : e.ticked.still = e.still := by
  obtain ⟨seat, origin, day, second, remaining, priority, overtime⟩ := e
  cases remaining with
  | none => rfl
  | some n => cases n <;> cases priority <;> rfl

/-- The count of a second alone brings no promotion (R24). -/
theorem promotionDue_ticked {s t : State} (floor : t.flc = { s.flc with speakers := s.flc.speakers.map SpeakerEntry.ticked })
    (settings : t.settings = s.settings) : promotionDue s t = false := by
  have kept : lostSeat s.flc { s.flc with speakers := s.flc.speakers.map SpeakerEntry.ticked } = false := by simp [lostSeat]
  have muted : seatsDiffer (·.selfMuted) s.flc { s.flc with speakers := s.flc.speakers.map SpeakerEntry.ticked } = false := by simp [seatsDiffer]
  have still : SpeakerEntry.still ∘ SpeakerEntry.ticked = SpeakerEntry.still := funext still_ticked
  simp [promotionDue, floor, settings, kept, muted, still]

/-- What a second event sends behind the results of its floor change (R34, R35). -/
def secondMore (sp : List SpeakerEntry) : List Instr :=
  [.speechRemainingReport (sp.map fun e => (e.seat, e.remaining))] ++ if sp.any (·.due) then [.speechTimerExpiry] else []

/-- A second event in FULL that counts an entry down (R34). -/
theorem speechSecond_counts {s u : State} (floor : u.flc = s.flc) (settings : u.settings = s.settings)
    (full : s.flc.power = some .full) (counts : s.flc.speakers.map SpeakerEntry.ticked ≠ s.flc.speakers) :
    u.speechSecond = (State.floorChange .secondEvent s ({ u with flc := { s.flc with speakers := s.flc.speakers.map SpeakerEntry.ticked } } : State)).emit
        (secondMore (s.flc.speakers.map SpeakerEntry.ticked)) ∧
      u.speechSecond.flc.speakers = s.flc.speakers.map SpeakerEntry.ticked ∧ u.speechSecond.flc.queue = s.flc.queue ∧
      u.speechSecond.flc.overrides = s.flc.overrides := by
  have idle := promotionDue_ticked (s := s) (t := { u with flc := { s.flc with speakers := s.flc.speakers.map SpeakerEntry.ticked } }) rfl settings
  have settled : State.settledFlc s { u with flc := { s.flc with speakers := s.flc.speakers.map SpeakerEntry.ticked } } =
      Flc.withRings u.settings.warningLead { s.flc with speakers := s.flc.speakers.map SpeakerEntry.ticked } :=
    congrArg (Flc.withRings u.settings.warningLead) (if_neg (by simp [idle]))
  have change : u.floorEdit .secondEvent (fun f => { f with speakers := u.flc.speakers.map SpeakerEntry.ticked }) =
      State.floorChange .secondEvent s ({ u with flc := { s.flc with speakers := s.flc.speakers.map SpeakerEntry.ticked } } : State) := by
    rw [State.floorEdit, floor]
    exact floorChange_congr _ floor settings .secondEvent
  have speakers : (State.floorChange .secondEvent s ({ u with flc := { s.flc with speakers := s.flc.speakers.map SpeakerEntry.ticked } } : State)).flc =
      { Flc.withRings u.settings.warningLead { s.flc with speakers := s.flc.speakers.map SpeakerEntry.ticked } with
        emptyTold := (Flc.withRings u.settings.warningLead { s.flc with speakers := s.flc.speakers.map SpeakerEntry.ticked }).isEmpty } := by
    rw [floorChange_eq, settled]
  have eq : u.speechSecond = (State.floorChange .secondEvent s
      ({ u with flc := { s.flc with speakers := s.flc.speakers.map SpeakerEntry.ticked } } : State)).emit
        (secondMore (s.flc.speakers.map SpeakerEntry.ticked)) := by
    unfold State.speechSecond
    dsimp only
    rw [change, floor, if_pos ⟨full, counts⟩, State.emit_emit, speakers]
    rfl
  rw [eq, State.emit_flc, speakers]
  exact ⟨rfl, rfl, rfl, rfl⟩

theorem exec_secondEvent_counts {s : State} (known : s.msc.clock ≠ .lost) (inDay : s.msc.second < 86399) (noMinute : (s.msc.second + 1) % 60 ≠ 0) :
    exec .secondEvent s = .next ({ s with msc := { s.msc with second := s.msc.second + 1 } } : State).speechSecond := by
  have running : ¬ s.msc.atEnd = true := by
    simp only [Msc.atEnd, Bool.and_eq_true, decide_eq_true_eq]
    omega
  have ticked : s.msc.tick = { s.msc with second := s.msc.second + 1 } := if_pos (by omega)
  have clock : ({ s with msc := { s.msc with second := s.msc.second + 1 } } : State).speechSecond.msc = { s.msc with second := s.msc.second + 1 } := by
    rw [speechSecond_frame]
  rw [exec_secondEvent, if_neg known, if_neg running, ticked, clock, if_neg noMinute]

/-- Settles O14. -/
theorem floorTimersExpire : Obligations.FloorTimersExpire := by
  intro x s counted
  have count : counted = s.flc.speakers.map SpeakerEntry.ticked := List.map_congr_left fun e _ => (ticked_eq e).symm
  clear_value counted
  subst count
  refine ⟨fun warn => ⟨_, rfl, floorBecomes_only ?warn rfl⟩, fun close => ⟨_, rfl, floorBecomes_only ?close rfl⟩, ⟨_, rfl, floorBecomes_raised rfl rfl⟩,
    fun known inDay noMinute => ⟨fun dark => ?dark, fun full counts => ?counts⟩⟩
  case warn => rw [State.taking_settings, warn, expire_warn]
  case close =>
    rw [State.taking_settings, close]
    exact closeDue_eq s.flc.speakers s.flc
  case dark =>
    have quiet : ({ s with msc := { s.msc with second := s.msc.second + 1 } } : State).speechSecond =
        { s with msc := { s.msc with second := s.msc.second + 1 } } := if_neg fun h => dark h.1
    rw [exec_secondEvent_counts known inDay noMinute, quiet]
  case counts =>
    obtain ⟨eq, speakers, queue, overrides⟩ := speechSecond_counts (s := s) (u := { s with msc := { s.msc with second := s.msc.second + 1 } }) rfl rfl full counts
    have told := floorChange_told .secondEvent s ({ s with
      msc := { s.msc with second := s.msc.second + 1 }, flc := { s.flc with speakers := s.flc.speakers.map SpeakerEntry.ticked } } : State) _ (secondMore (s.flc.speakers.map SpeakerEntry.ticked)) (.inl rfl) rfl eq (by
      intro i mem
      unfold secondMore at mem
      split at mem <;> simp at mem <;> rcases mem with rfl | rfl <;> trivial)
    have frame := speechSecond_frame { s with msc := { s.msc with second := s.msc.second + 1 } }
    refine ⟨_, exec_secondEvent_counts known inDay noMinute, frame, told, speakers, queue, overrides, ?_, fun due => ?_⟩
    · rw [eq, State.emit_flight]
      exact List.mem_append_right _ (.head _)
    · have any : (s.flc.speakers.map SpeakerEntry.ticked).any (·.due) = true := by
        obtain ⟨e, mem, zero, overtime, ordinary⟩ := due
        exact List.any_eq_true.mpr ⟨e, mem, by simp [SpeakerEntry.due, zero, overtime, ordinary]⟩
      rw [eq, State.emit_flight, secondMore, any]
      exact List.mem_append_right _ (.tail _ (.head _))

end Sys2Proof.Machine
end

section
/-! PROOF. Reports and commands at the floor (sections 2.8, 2.10 and 2.12). -/

namespace Sys2Proof.Machine

open Sys2Proof

theorem Tab.upd_upd {α : Type} {n : Nat} (t : Tab α n) (i : Fin n) (a b : α) : (t.upd i a).upd i b = t.upd i b :=
  Tab.ext_get _ _ fun j => by
    simp only [Tab.get_upd]
    split <;> rfl

/-- Without promotion the collections are as the event's own handling made them. -/
theorem floorEdit_unpromoted {cause : FloorCause} {s : State} {c : Instr} {edit : Flc → Flc} {f : Flc} (made : edit s.flc = f)
    (idle : promotionDue s (s.floorHandled (s.flight.erase c) s.settings f) = false) :
    ((s.taking c).floorEdit cause edit).flc.speakers = f.speakers ∧ ((s.taking c).floorEdit cause edit).flc.queue = f.queue := by
  have floor : State.settledFlc s (s.floorHandled (s.flight.erase c) s.settings f) = f.withRings s.settings.warningLead :=
    congrArg (Flc.withRings s.settings.warningLead) (if_neg (by simp [idle]))
  rw [floorEdit_eq, made, floorChange_eq, floor]
  exact ⟨rfl, rfl⟩

/-! ## Reports (R20, R36, R40, R42, R125) -/

theorem leaveFloor_eq (x : Seat) (f : Flc) : f.leaveFloor x = { f with
    speakers := f.speakers.filter fun e => e.seat ≠ x
    queue := f.queue.filter fun q => q.seat ≠ x
    overrides := f.overrides.filter fun y => y ≠ x
    seats := f.seats.upd x { f.seats.get x with selfMuted := false, flash := none } } := rfl

/-- A seat that leaves the floor, with one more change of its record. -/
theorem leaveFloor_put (x : Seat) (f : Flc) (g : FlcSeat → FlcSeat) : (f.leaveFloor x).put x (g ((f.leaveFloor x).seats.get x)) = { f with
    speakers := f.speakers.filter fun e => e.seat ≠ x
    queue := f.queue.filter fun q => q.seat ≠ x
    overrides := f.overrides.filter fun y => y ≠ x
    seats := f.seats.upd x (g { f.seats.get x with selfMuted := false, flash := none }) } := by
  rw [leaveFloor_eq, Flc.put]
  dsimp only
  rw [Tab.get_upd_self, Tab.upd_upd]

theorem takePresence_lost (x : Seat) (was : Presence) (f : Flc) : f.takePresence x was .offline = { f with
    speakers := f.speakers.filter fun e => e.seat ≠ x
    queue := f.queue.filter fun q => q.seat ≠ x
    overrides := f.overrides.filter fun y => y ≠ x
    seats := f.seats.upd x { f.seats.get x with selfMuted := false, flash := none, online := false } } :=
  leaveFloor_put x f fun t => { t with online := false }

theorem disable_eq (x : Seat) (f : Flc) : f.disable x = { f with
    speakers := f.speakers.filter fun e => e.seat ≠ x
    queue := f.queue.filter fun q => q.seat ≠ x
    overrides := f.overrides.filter fun y => y ≠ x
    seats := f.seats.upd x { f.seats.get x with enabled := false, selfMuted := false, flash := none } } :=
  leaveFloor_put x f fun t => { t with enabled := false }

/-- The floor without a deleted participant (R125). -/
def Flc.forgetParticipant (p : PIdx) (f : Flc) : Flc :=
  { f with seats := Tab.gen fun x =>
      { f.seats.get x with participant := if (f.seats.get x).participant = some p then none else (f.seats.get x).participant } }

theorem promotionDue_forgetParticipant {s t : State} {p : PIdx} (floor : t.flc = s.flc.forgetParticipant p) (settings : t.settings = s.settings) :
    promotionDue s t = false := by
  have kept : lostSeat s.flc (s.flc.forgetParticipant p) = false := by simp [lostSeat, Flc.forgetParticipant]
  have muted : seatsDiffer (·.selfMuted) s.flc (s.flc.forgetParticipant p) = false := by simp [seatsDiffer, Flc.forgetParticipant]
  simp only [promotionDue, floor, settings, kept, muted]
  simp [Flc.forgetParticipant]

/-- Settles O15. -/
theorem reportsAtTheFloor : Obligations.ReportsAtTheFloor := by
  intro x was b p s
  refine ⟨⟨_, rfl, floorBecomes_edit rfl rfl _ (by simp [FollowsFloor]), endsWith_emit (floorEdit_prefix _ _ _) _⟩,
    ⟨_, rfl, floorBecomes_only (takePresence_lost x .online s.flc) rfl⟩, ⟨_, rfl, floorBecomes_only rfl rfl⟩, ?_⟩
  obtain ⟨frame, settings, settled, told⟩ := floorBecomes_only (cause := .report) (s := s) (c := .participantDeletionReport p)
    (edit := Flc.forgetParticipant p) rfl rfl
  obtain ⟨speakers, queue⟩ := floorEdit_unpromoted (cause := .report) (s := s) (c := .participantDeletionReport p) (edit := Flc.forgetParticipant p) rfl
    (promotionDue_forgetParticipant rfl rfl)
  refine ⟨(s.taking (.participantDeletionReport p)).floorEdit .report (Flc.forgetParticipant p), rfl, frame, told, settings, fun y => ?_, speakers, queue⟩
  obtain ⟨-, -, participant, -⟩ := settled.fields y
  rw [participant]
  exact congrArg FlcSeat.participant (Tab.get_gen _ y)

/-! ## Commands that change the floor alone (R46 to R49, R53, R54) -/

theorem floorOk_eq (s : State) (r : CmdRef) (edit : Flc → Flc) (payload : Flc → List Byte) :
    s.floorOk r edit payload = (s.floorEdit .command edit).emit [.blockResult r .ok (payload (s.floorEdit .command edit).flc)] := rfl

theorem floorOk_becomes {s : State} {c : Instr} {r : CmdRef} {edit : Flc → Flc} {payload : Flc → List Byte} {f : Flc} (made : edit s.flc = f)
    (told : f.emptyTold = s.flc.emptyTold) : FloorBecomes .command s ((s.taking c).floorOk r edit payload) f ∧
      SentSome c s ((s.taking c).floorOk r edit payload) (EndsWith (.blockResult r .ok (payload ((s.taking c).floorEdit .command edit).flc))) := by
  rw [floorOk_eq]
  exact ⟨floorBecomes_edit made told _ (by simp [FollowsFloor]), endsWith_emit (floorEdit_prefix _ (s.taking c) edit) _⟩

section
variable {s : State} {r : CmdRef} {x : Seat}

/-- Whom the override hold lets open (R33). -/
theorem hold_passes (free : hasPriority (s.flc.role x) = true ∨ s.flc.holds s.settings.priorityPolicy = false) :
    ¬ (!hasPriority (s.flc.role x) && s.flc.holds s.settings.priorityPolicy) = true := by
  obtain priority | free := free
  · simp [priority]
  · simp [free]

theorem grantSeat_opens (part : s.flc.takesPart x = true) (silent : s.flc.speaks x = false) (room : s.flc.speakers.length < s.flc.limit)
    (free : hasPriority (s.flc.role x) = true ∨ s.flc.holds s.settings.priorityPolicy = false) :
    s.grantSeat r x = s.floorOk r (Flc.openSeat s.floorEnv x .port) fun _ => [] := by
  unfold State.grantSeat
  dsimp only
  rw [if_neg (by simp [part]), if_neg (by simp [silent]), if_neg (hold_passes free), if_neg (by simp [hasRoom_iff.mpr room])]

theorem exec_grant (full : s.pcu.power = some .full) : exec (.grant r (some x)) s = .next ((s.taking (.grant r (some x))).grantSeat r x) :=
  next_congr (whenFull_full r _ full)

theorem exec_grantNext (full : s.pcu.power = some .full) {q : QueueEntry} {rest : List QueueEntry} (queue : s.flc.queue = q :: rest)
    (room : s.flc.speakers.length < s.flc.limit) (free : hasPriority (s.flc.role q.seat) = true ∨ s.flc.holds s.settings.priorityPolicy = false) :
    exec (.grantNext r) s = .next ((s.taking (.grantNext r)).floorOk r
      (Flc.openSeat s.floorEnv q.seat (if q.origin = .voice then .voice else .port)) fun _ => u8 q.seat.val) := by
  have run : exec (.grantNext r) s = execGrantNext r s := rfl
  rw [run, execGrantNext, whenFull_full (s := s.taking (.grantNext r)) r _ full]
  simp only [State.taking_flc, queue]
  exact next_congr ((if_neg (hold_passes free)).trans (if_neg (by simp [hasRoom_iff.mpr room])))

theorem addRequestFor_queues (part : s.flc.takesPart x = true) (silent : s.flc.speaks x = false) (idle : s.flc.waits x = false)
    (room : s.flc.queue.length < 24) : s.addRequestFor r x = s.floorOk r (Flc.enqueue s.floorEnv x .port) fun f => u8 (f.position x) := by
  unfold State.addRequestFor
  dsimp only
  rw [if_neg (by simp [part]), if_neg (by simp [silent]), if_neg (by simp [idle]), if_neg (Nat.not_le.mpr room)]

theorem exec_addRequest (full : s.pcu.power = some .full) :
    exec (.addRequest r (some x)) s = .next ((s.taking (.addRequest r (some x))).addRequestFor r x) :=
  next_congr (whenFull_full r _ full)

/-- A seat at the tail of a queue that did not hold it has the last place (R22). -/
theorem position_tail {f g : Flc} {q : QueueEntry} (idle : f.waits q.seat = false) (queue : g.queue = f.queue ++ [q]) :
    g.position q.seat = f.queue.length + 1 := by
  have unfound : f.queue.findIdx? (fun d => d.seat = q.seat) = none := by
    rw [List.findIdx?_eq_none_iff]
    simpa [Flc.waits] using idle
  have found : g.queue.findIdx? (fun d => d.seat = q.seat) = some f.queue.length := by
    rw [queue, List.findIdx?_append, unfound]
    simp
  rw [Flc.position, found]

end

/-- Settles O17. -/
theorem grantsAndRequests : Obligations.GrantsAndRequests := by
  intro r x s full
  refine ⟨fun part silent room free => ?grant, fun q rest queue room free => ?next, fun part silent idle room => ?request⟩
  case grant =>
    exact ⟨_, (exec_grant full).trans (next_congr (grantSeat_opens (s := s.taking _) part silent room free)), floorOk_becomes (openSeat_eq s x .port) rfl⟩
  case next => exact ⟨_, exec_grantNext full queue room free, floorOk_becomes (openSeat_eq ..) rfl⟩
  case request =>
    have run := (exec_addRequest (r := r) full).trans (next_congr (addRequestFor_queues (s := s.taking (.addRequest r (some x))) (r := r) part silent idle room))
    obtain ⟨becomes, last⟩ := floorOk_becomes (s := s) (c := .addRequest r (some x)) (r := r) (edit := Flc.enqueue s.floorEnv x .port)
      (payload := fun f => u8 (f.position x)) rfl rfl
    refine ⟨_, run, becomes, fun unpromoting => ?_⟩
    obtain ⟨-, -, settled, -⟩ := floorBecomes_only (cause := .command) (s := s) (c := .addRequest r (some x)) (edit := Flc.enqueue s.floorEnv x .port) rfl rfl
    obtain ⟨-, queue⟩ := settled.unpromoted unpromoting
    have place := position_tail (q := ⟨x, .port, s.msc.day, s.msc.second⟩) idle queue
    rw [place] at last
    exact last

theorem exec_close {s : State} (full : s.pcu.power = some .full) (r : CmdRef) (x : Seat) : exec (.close r (some x)) s = .next (
    if s.flc.speaks x then (s.taking (.close r (some x))).floorOk r (Flc.closeSeat x) fun _ => []
    else if s.flc.waits x then (s.taking (.close r (some x))).floorOk r (Flc.withdraw x) fun _ => []
    else Answered (.close r (some x)) r .notFound [] s) :=
  next_congr (whenFull_full (s := s.taking (.close r (some x))) r _ full)

/-- Settles O18. -/
theorem closingCommands : Obligations.ClosingCommands := by
  intro r x s full
  refine ⟨fun speaks => ⟨_, (exec_close full r x).trans (next_congr (if_pos speaks)), floorOk_becomes rfl rfl⟩,
    fun silent waits => ⟨_, (exec_close full r x).trans (next_congr ((if_neg (by simp [silent])).trans (if_pos waits))), floorOk_becomes rfl rfl⟩,
    fun silent idle => by rw [exec_close full, if_neg (by simp [silent]), if_neg (by simp [idle])],
    ⟨_, next_congr (whenFull_full (s := s.taking (.closeSpeakers r)) r _ full), floorOk_becomes rfl rfl⟩,
    ⟨_, next_congr (whenFull_full (s := s.taking (.clearQueue r)) r _ full), floorOk_becomes rfl rfl⟩⟩

/-! ## ENABLE-SEAT and SET-ROLE (R53, R54) -/

theorem assignRole_seats (limit : Nat) (x : Seat) (role : Role) (f : Flc) (y : Seat) : (f.assignRole limit x role).seats.get y =
    if y = x then { f.seats.get x with role := role } else f.seats.get y := by
  unfold Flc.assignRole
  split
  · rename_i same
    split
    · rename_i here
      subst here
      rw [← same]
      rfl
    · rfl
  · exact Tab.get_upd ..

/-- The seat after a fold that makes the holders of a role ORDINARY (R54). -/
theorem dismissed_seats (limit : Nat) (x : Seat) (role : Role) (l : List Seat) (f : Flc) (y : Seat) :
    (l.foldl (fun g y => if y ≠ x ∧ g.role y = role then g.assignRole limit y .ordinary else g) f).seats.get y =
      if y ∈ l ∧ y ≠ x ∧ f.role y = role then { f.seats.get y with role := .ordinary } else f.seats.get y := by
  induction l generalizing f with
  | nil => simp
  | cons z l ih =>
    rw [List.foldl_cons, ih]
    have role_of : ∀ g : Flc, g.role y = (g.seats.get y).role := fun _ => rfl
    by_cases here : y = z
    · subst here
      by_cases holds : y ≠ x ∧ f.role y = role
      · rw [if_pos holds, role_of, assignRole_seats, if_pos rfl, if_pos (c := y ∈ y :: l ∧ y ≠ x ∧ f.role y = role) ⟨List.mem_cons_self, holds⟩]
        split <;> rfl
      · rw [if_neg holds, if_neg fun h => holds h.2, if_neg fun h => holds h.2]
    · have same : (if z ≠ x ∧ f.role z = role then f.assignRole limit z .ordinary else f).seats.get y = f.seats.get y := by
        split
        · rw [assignRole_seats, if_neg here]
        · rfl
      rw [role_of, same, ← role_of]
      simp [here]

/-- What SET-ROLE makes of the seats (R54). -/
theorem giveRole_seats (limit : Nat) (x : Seat) (role : Role) (f : Flc) (y : Seat) : (f.giveRole limit x role).seats.get y =
    if y = x then { f.seats.get x with role := role }
    else if hasPriority role = true ∧ f.role y = role then { f.seats.get y with role := .ordinary } else f.seats.get y := by
  have given : f.giveRole limit x role = (if hasPriority role then
      allSeats.foldl (fun g y => if y ≠ x ∧ g.role y = role then g.assignRole limit y .ordinary else g) f else f).assignRole limit x role := rfl
  rw [given, assignRole_seats]
  cases priority : hasPriority role with
  | true => simp only [if_true, dismissed_seats, mem_allSeats, true_and, ne_eq, not_true_eq_false, false_and, if_false]; grind
  | false => simp

theorem exec_setRole_keep {s : State} (full : s.pcu.power = some .full) (r : CmdRef) (x : Seat) (ro : Role) : exec (.setRole r (some x) (some ro) .keep) s =
    .next ((s.taking (.setRole r (some x) (some ro) .keep)).floorOk r (Flc.giveRole s.settings.speechLimit x ro) fun _ => []) :=
  next_congr (whenFull_full r _ full)

theorem giveRole_emptyTold (limit : Nat) (x : Seat) (role : Role) (f : Flc) : (f.giveRole limit x role).emptyTold = f.emptyTold := by
  have assigned : ∀ (g : Flc) (y : Seat) (ro : Role), (g.assignRole limit y ro).emptyTold = g.emptyTold := fun g y ro => by
    unfold Flc.assignRole
    split <;> rfl
  have dismissed : ∀ (l : List Seat) (g : Flc), (l.foldl (fun g y => if y ≠ x ∧ g.role y = role then g.assignRole limit y .ordinary else g) g).emptyTold =
      g.emptyTold := fun l => by
    induction l with
    | nil => exact fun _ => rfl
    | cons z l ih =>
      intro g
      rw [List.foldl_cons, ih]
      split
      · exact assigned ..
      · rfl
  unfold Flc.giveRole
  dsimp only
  rw [assigned]
  split
  · exact dismissed ..
  · rfl

theorem exec_enableSeat {s : State} (full : s.pcu.power = some .full) (r : CmdRef) (x : Seat) : exec (.enableSeat r (some x) (some true)) s = .next (
    if s.flc.seating = .lockedRoom then Answered (.enableSeat r (some x) (some true)) r .state [] s
    else (s.taking (.enableSeat r (some x) (some true))).floorOk r (fun f => f.put x { f.seats.get x with enabled := true }) fun _ => []) :=
  next_congr (whenFull_full (s := s.taking (.enableSeat r (some x) (some true))) r _ full)

theorem exec_disableSeat {s : State} (full : s.pcu.power = some .full) (r : CmdRef) (x : Seat) : exec (.enableSeat r (some x) (some false)) s = .next (
    if (s.flc.seats.get x).enabled then (s.taking (.enableSeat r (some x) (some false))).floorOk r (Flc.disable x) fun _ => []
    else Answered (.enableSeat r (some x) (some false)) r .ok [] s) :=
  next_congr (whenFull_full (s := s.taking (.enableSeat r (some x) (some false))) r _ full)

/-- Settles O20. -/
theorem seatSettingCommands : Obligations.SeatSettingCommands := by
  intro r x s full
  refine ⟨fun unlocked => ⟨_, (exec_enableSeat full r x).trans (next_congr (if_neg unlocked)), (floorOk_becomes rfl rfl).1⟩,
    fun locked => (exec_enableSeat full r x).trans (next_congr (if_pos locked)),
    fun enabled => ⟨_, (exec_disableSeat full r x).trans (next_congr (if_pos enabled)), (floorOk_becomes (disable_eq x s.flc) rfl).1⟩, fun ro => ?role⟩
  obtain ⟨⟨frame, settings, settled, told⟩, last⟩ := floorOk_becomes (s := s) (c := .setRole r (some x) (some ro) .keep) (r := r)
    (edit := Flc.giveRole s.settings.speechLimit x ro) (payload := fun _ => []) rfl (giveRole_emptyTold ..)
  refine ⟨_, exec_setRole_keep full r x ro, frame, told, settings, ?_, fun y other => ?_, fun y => ?_, last⟩
  · rw [(settled.fields x).2.1, giveRole_seats, if_pos rfl]
  · rw [(settled.fields y).2.1, giveRole_seats, if_neg other]
    split
    · rename_i holds
      exact (if_pos holds).symm
    · rename_i holds
      exact (if_neg holds).symm
  · obtain ⟨enabled, -, participant, online⟩ := settled.fields y
    rw [enabled, participant, online, giveRole_seats]
    split
    · rename_i here
      subst here
      exact ⟨rfl, rfl, rfl⟩
    · split <;> exact ⟨rfl, rfl, rfl⟩

end Sys2Proof.Machine
end

section
/-! PROOF. The floor settings (R23, R38, R39, R50 to R52): evictions down to a lower limit, and the commands that set them. -/

namespace Sys2Proof.Machine

open Sys2Proof

/-! ## Evictions (R23, R39) -/

/-- In a list that holds every seat once, closing a seat takes out its one entry. -/
theorem filter_seat_middle {as bs : List SpeakerEntry} {e : SpeakerEntry} (once : ((as ++ e :: bs).map (·.seat)).Nodup) :
    ((as ++ e :: bs).filter fun d => d.seat ≠ e.seat) = as ++ bs := by
  simp only [List.map_append, List.map_cons, List.nodup_append, List.nodup_cons, List.mem_map, List.mem_cons] at once
  obtain ⟨-, ⟨behind, -⟩, before⟩ := once
  have front : ∀ d ∈ as, d.seat ≠ e.seat := fun d mem => before _ ⟨d, mem, rfl⟩ _ (.inl rfl)
  have back : ∀ d ∈ bs, d.seat ≠ e.seat := fun d mem same => behind ⟨d, mem, same⟩
  rw [List.filter_append, List.filter_cons_of_neg (by simp), List.filter_eq_self.mpr (by simpa using front), List.filter_eq_self.mpr (by simpa using back)]

/-- What evictions leave: the oldest entries without priority go first, and nothing else of the floor moves but the override set (R23). -/
structure Evicted (f g : Flc) : Prop where
  sublist : g.speakers.Sublist f.speakers
  oldest : (g.speakers.filter fun e => !e.priority) <:+ f.speakers.filter fun e => !e.priority
  ordinaryFirst : (∃ e ∈ g.speakers, e.priority = false) → ∀ e ∈ f.speakers, e ∉ g.speakers → e.priority = false
  queue : g.queue = f.queue
  mode : g.mode = f.mode
  told : g.emptyTold = f.emptyTold

theorem Evicted.refl (f : Flc) : Evicted f f :=
  ⟨.refl _, List.suffix_rfl, fun _ _ mem gone => absurd mem gone, rfl, rfl, rfl⟩

theorem Evicted.trans {f g k : Flc} (a : Evicted f g) (b : Evicted g k) : Evicted f k := by
  refine ⟨b.sublist.trans a.sublist, b.oldest.trans a.oldest, fun left e mem gone => ?_, b.queue.trans a.queue, b.mode.trans a.mode, b.told.trans a.told⟩
  by_cases stayed : e ∈ g.speakers
  · exact b.ordinaryFirst left e stayed gone
  · obtain ⟨d, held, ordinary⟩ := left
    exact a.ordinaryFirst ⟨d, b.sublist.subset held, ordinary⟩ e mem stayed

/-- One eviction takes the one entry of the victim, the oldest without priority where there is one (R23). -/
theorem evict_takes_one {f : Flc} (core : FloorCore f) (speaking : f.speakers ≠ []) : ∃ as e bs, f.speakers = as ++ e :: bs ∧
    f.evict = f.closeSeat e.seat ∧ f.evict.speakers = as ++ bs ∧ ((∀ d ∈ f.speakers, d.priority = true) ∨ (e.priority = false ∧ ∀ d ∈ as, d.priority = true)) := by
  have once := core.speakersOnce
  cases found : f.speakers.find? (fun e => !e.priority) with
  | some e =>
    obtain ⟨ordinary, as, bs, parts, before⟩ := List.find?_eq_some_iff_append.mp found
    refine ⟨as, e, bs, parts, evict_eq (victim_ordinary found), ?_, .inr ⟨by simpa using ordinary, by simpa using before⟩⟩
    rw [evict_eq (victim_ordinary found), ← filter_seat_middle (parts ▸ once), ← parts]
    rfl
  | none =>
    obtain ⟨x, victim, speaks⟩ := victim_of_speakers core speaking
    obtain ⟨e, mem, rfl⟩ := speaks_iff.1 speaks
    obtain ⟨as, bs, parts⟩ := List.append_of_mem mem
    refine ⟨as, e, bs, parts, evict_eq victim, ?_, .inl (by simpa using found)⟩
    rw [evict_eq victim, ← filter_seat_middle (parts ▸ once), ← parts]
    rfl

theorem evict_length_eq {f : Flc} (core : FloorCore f) (speaking : f.speakers ≠ []) : f.evict.speakers.length + 1 = f.speakers.length := by
  obtain ⟨as, e, bs, parts, -, left, -⟩ := evict_takes_one core speaking
  rw [left, parts, List.length_append, List.length_append, List.length_cons]
  omega

theorem evict_evicted {f : Flc} (core : FloorCore f) (speaking : f.speakers ≠ []) : Evicted f f.evict := by
  obtain ⟨as, e, bs, parts, evict, left, which⟩ := evict_takes_one core speaking
  refine ⟨?_, ?_, fun ⟨d, held, ordinary⟩ c mem gone => ?_, by rw [evict]; rfl, by rw [evict]; rfl, by rw [evict]; rfl⟩
  · rw [left, parts]
    exact (List.sublist_cons_self e bs).append_left as
  · rw [left, parts, List.filter_append, List.filter_append]
    obtain priority | ⟨ordinary, before⟩ := which
    · have none_left : (as ++ bs).filter (fun d => !d.priority) = [] := by
        rw [List.filter_eq_nil_iff]
        intro d mem
        have held : d ∈ f.speakers := parts ▸ ((List.sublist_cons_self e bs).append_left as).subset mem
        simp [priority d held]
      rw [← List.filter_append, none_left]
      exact List.nil_suffix
    · have no_front : as.filter (fun d => !d.priority) = [] := List.filter_eq_nil_iff.mpr fun d mem => by simp [before d mem]
      rw [no_front, List.filter_cons_of_pos (by simp [ordinary])]
      exact List.suffix_cons ..
  · have other : c = e := by
      rw [left, List.mem_append, not_or] at gone
      rw [parts, List.mem_append, List.mem_cons] at mem
      obtain front | here | back := mem
      · exact absurd front gone.1
      · exact here
      · exact absurd back gone.2
    obtain priority | ⟨first, -⟩ := which
    · have held' : d ∈ f.speakers := parts ▸ ((List.sublist_cons_self e bs).append_left as).subset (left ▸ held)
      exact absurd (priority d held') (by simp [ordinary])
    · exact other ▸ first

/-- Evictions run down to the limit, one entry at a time (R39). -/
theorem evictDown_evicted {f : Flc} (n : Nat) (core : FloorCore f) : Evicted f (f.evictDown n) := by
  induction n generalizing f with
  | zero => exact .refl f
  | succ n ih =>
    unfold Flc.evictDown
    split
    · rename_i more
      exact (evict_evicted core fun empty => by simp [empty] at more).trans (ih core.evict)
    · exact .refl f

theorem evictDown_length {f : Flc} (n : Nat) (core : FloorCore f) (many : f.limit ≤ f.speakers.length) (enough : f.speakers.length ≤ f.limit + n) :
    (f.evictDown n).speakers.length = f.limit := by
  induction n generalizing f with
  | zero => exact Nat.le_antisymm enough many
  | succ n ih =>
    unfold Flc.evictDown
    split
    · rename_i more
      have one := evict_length_eq core fun empty => by simp [empty] at more
      rw [ih core.evict (by rw [evict_limit]; omega) (by rw [evict_limit]; omega), evict_limit]
    · omega

theorem evictDown_within {f : Flc} (n : Nat) (few : f.speakers.length ≤ f.limit) : f.evictDown n = f := by
  cases n with
  | zero => rfl
  | succ n => exact if_neg (Nat.not_lt.mpr few)

/-! ## The commands -/

/-- A command that sets a setting makes the floor that its change brings, and its result is sent last (R37, R178). -/
theorem floorSet_becomes {s : State} {c : Instr} {r : CmdRef} {set : Settings → Settings} {edit : Flc → Flc} {result : Result} {payload : List Byte}
    {st : Settings} {f : Flc} (sets : set s.settings = st) (made : edit s.flc = f) (told : f.emptyTold = s.flc.emptyTold) :
    FloorBecomesUnder .command s ((s.taking c).floorSet r set edit result payload) st f ∧
      SentSome c s ((s.taking c).floorSet r set edit result payload) (EndsWith (.blockResult r result payload)) := by
  have run : (s.taking c).floorSet r set edit result payload =
      (State.floorChange .command s (s.floorHandled (s.flight.erase c) st f)).emit [.blockResult r result payload] := by
    have handled : ({ s.taking c with settings := set (s.taking c).settings, flc := edit (s.taking c).flc } : State) =
        s.floorHandled (s.flight.erase c) st f := by
      rw [← sets, ← made]
      rfl
    rw [State.floorSet, handled, floorChange_congr (s0' := s) _ rfl rfl]
    rfl
  rw [run]
  refine ⟨floorBecomesUnder_change (.inr ⟨c, rfl⟩) told (by simp [FollowsFloor]) rfl, endsWith_emit ?_ _⟩
  obtain ⟨out, sent⟩ := floorChange_flight .command s (s.floorHandled (s.flight.erase c) st f)
  exact ⟨out, sent.symm⟩

theorem exec_setFloorMode {s : State} (full : s.pcu.power = some .full) (r : CmdRef) (m : FloorMode) (sc : Scope) :
    exec (.setFloorMode r (some m) (some sc)) s = .next ((s.taking (.setFloorMode r (some m) (some sc))).floorSet r
      (fun st => if sc = .default then { st with defaultMode := m } else st) (Flc.changeMode m) .ok []) := by
  cases sc with
  | now => exact next_congr (whenFull_full (s := s.taking (.setFloorMode r (some m) (some .now))) r _ full)
  | default => exact next_congr (whenFull_full (s := s.taking (.setFloorMode r (some m) (some .default))) r _ full)

theorem exec_setOpenLimit {s : State} (full : s.pcu.power = some .full) (r : CmdRef) (n : Int) (sc : Scope) :
    exec (.setOpenLimit r (some n) (some sc)) s = .next ((s.taking (.setOpenLimit r (some n) (some sc))).setLimit r sc n) :=
  next_congr (whenFull_full r _ full)

/-- SET-OPEN-LIMIT with its result, whichever it is (R50). -/
theorem setLimit_becomes {s : State} {c : Instr} (r : CmdRef) (sc : Scope) (n : Int) {f : Flc} (made : s.flc.changeLimit (clampInt 1 8 n).toNat = f)
    (told : f.emptyTold = s.flc.emptyTold) :
    FloorBecomesUnder .command s ((s.taking c).setLimit r sc n)
        (if sc = .default then { s.settings with defaultLimit := (clampInt 1 8 n).toNat } else s.settings) f ∧
      SentSome c s ((s.taking c).setLimit r sc n) (EndsWith (if 1 ≤ n ∧ n ≤ 8 then .blockResult r .ok []
        else .blockResult r .clamped (u16 (clampInt 1 8 n).toNat))) := by
  unfold State.setLimit
  dsimp only
  by_cases inRange : 1 ≤ n ∧ n ≤ 8
  · rw [if_pos inRange, if_pos inRange]
    exact floorSet_becomes rfl made told
  · rw [if_neg inRange, if_neg inRange]
    exact floorSet_becomes rfl made told

theorem changeMode_plain {f : Flc} {m : FloorMode} (into : m ≠ .voice) (out : f.mode ≠ .voice) : f.changeMode m = { f with mode := m } := by
  unfold Flc.changeMode
  by_cases same : m = f.mode
  · rw [if_pos same, same]
  · rw [if_neg same, if_neg into, if_neg out]

theorem changeMode_departs {f : Flc} {m : FloorMode} (into : m ≠ .voice) (out : f.mode = .voice) : f.changeMode m = { f with
    mode := m
    queue := f.queue.filter fun q => q.origin ≠ .voice
    speakers := f.speakers.map fun e => if e.origin = .voice then { e with origin := .auto } else e
    seats := Tab.gen fun x => { f.seats.get x with selfMuted := false } } := by
  unfold Flc.changeMode
  rw [if_neg (fun same => into (same.trans out)), if_neg into, if_pos out]

theorem changeMode_enters {f : Flc} (out : f.mode ≠ .voice) : f.changeMode .voice = { f with mode := .voice, queue := [] } := by
  unfold Flc.changeMode
  rw [if_neg (fun same => out same.symm), if_pos rfl]

/-- A limit that evictions reached leaves no room for promotion. -/
theorem settled_of_full {st : Settings} {f g : Flc} (settled : FloorSettled st f g) (once : (f.queue.map (·.seat)).Nodup)
    (full : f.limit ≤ f.speakers.length) : g.speakers = f.speakers ∧ g.queue = f.queue := by
  obtain ⟨n, -, queue, speakers, room, -⟩ := settled.heads once
  have opened : n = 0 := by omega
  subst opened
  refine ⟨?_, by simpa using queue⟩
  have same := congrArg List.length speakers
  simp only [List.take_zero, List.map_nil, List.append_nil, List.length_map] at same
  exact (settled.speakers.eq_of_length same.symm).symm

theorem lowerLimit_evicts {s : State} (r : CmdRef) (n : Int) (sc : Scope) (sound : FloorSound s.flc)
    (lower : clampInt 1 8 n < (s.flc.speakers.length : Int)) (c : Instr) : let t := (s.taking c).setLimit r sc n
    FloorFrame s t ∧ FloorTold .command s t ∧
    t.settings = (if sc = .default then { s.settings with defaultLimit := (clampInt 1 8 n).toNat } else s.settings) ∧
    t.flc.limit = (clampInt 1 8 n).toNat ∧ t.flc.mode = s.flc.mode ∧ t.flc.queue = s.flc.queue ∧
    t.flc.speakers.length = (clampInt 1 8 n).toNat ∧ t.flc.speakers.Sublist s.flc.speakers ∧
    (t.flc.speakers.filter fun e => !e.priority) <:+ (s.flc.speakers.filter fun e => !e.priority) ∧
    ((∃ e ∈ t.flc.speakers, e.priority = false) → ∀ e ∈ s.flc.speakers, e ∉ t.flc.speakers → e.priority = false) := by
  obtain ⟨core, -, -⟩ := (floorSound_iff _).1 sound
  have core' : FloorCore { s.flc with limit := (clampInt 1 8 n).toNat } :=
    core.shrink (List.Sublist.refl _) (List.Sublist.refl _) (fun _ _ part => part) fun _ _ => rfl
  have many : (clampInt 1 8 n).toNat ≤ s.flc.speakers.length := by omega
  have evicted : Evicted { s.flc with limit := (clampInt 1 8 n).toNat } (s.flc.changeLimit (clampInt 1 8 n).toNat) := evictDown_evicted _ core'
  have length : (s.flc.changeLimit (clampInt 1 8 n).toNat).speakers.length = (clampInt 1 8 n).toNat :=
    evictDown_length _ core' many (Nat.le_add_left _ _)
  have limit : (s.flc.changeLimit (clampInt 1 8 n).toNat).limit = (clampInt 1 8 n).toNat := evictDown_limit _ _
  obtain ⟨⟨frame, settings, settled, told⟩, -⟩ := setLimit_becomes (s := s) (c := c) r sc n rfl evicted.told
  obtain ⟨speakers, queue⟩ := settled_of_full settled (by rw [evicted.queue]; exact core.queueOnce) (by rw [limit, length])
  refine ⟨frame, told, settings, settled.limit.trans limit, settled.mode.trans evicted.mode, queue.trans evicted.queue, ?_⟩
  rw [speakers]
  exact ⟨length, evicted.sublist, evicted.oldest, evicted.ordinaryFirst⟩

theorem exec_setOverflow {s : State} (full : s.pcu.power = some .full) (r : CmdRef) (p : Overflow) : exec (.setOverflow r (some p)) s =
    .next ((s.taking (.setOverflow r (some p))).floorSet r (fun st => { st with overflow := p }) id .ok []) :=
  next_congr (whenFull_full r _ full)

theorem exec_setPriorityPolicy {s : State} (full : s.pcu.power = some .full) (r : CmdRef) (p : PriorityPolicy) :
    exec (.setPriorityPolicy r (some p)) s = .next (if p = s.settings.priorityPolicy then Answered (.setPriorityPolicy r (some p)) r .ok [] s
      else (s.taking (.setPriorityPolicy r (some p))).floorSet r (fun st => { st with priorityPolicy := p }) (Flc.takePolicy p) .ok []) :=
  next_congr (whenFull_full (s := s.taking (.setPriorityPolicy r (some p))) r _ full)

theorem takePolicy_told (p : PriorityPolicy) (f : Flc) : (f.takePolicy p).emptyTold = f.emptyTold := by
  unfold Flc.takePolicy
  split <;> rfl

/-- What SET-SPEECH-LIMIT sets (R52). -/
def Settings.withSpeechLimit (n l : Int) (a : ExpiryAction) (st : Settings) : Settings :=
  { st with speechLimit := (speechLimitOf n).toNat, warningLead := (clampInt 0 120 l).toNat, expiryAction := a }

theorem exec_setSpeechLimit {s : State} (full : s.pcu.power = some .full) (r : CmdRef) (n l : Int) (a : ExpiryAction) :
    let u := s.taking (.setSpeechLimit r (some n) (some l) (some a))
    exec (.setSpeechLimit r (some n) (some l) (some a)) s = .next (if n = speechLimitOf n ∧ l = clampInt 0 120 l then
      u.floorSet r (Settings.withSpeechLimit n l a) id .ok []
      else u.floorSet r (Settings.withSpeechLimit n l a) id .clamped (i16 (speechLimitOf n) ++ i16 (clampInt 0 120 l) ++ u8 a.ctorIdx)) :=
  next_congr (whenFull_full (s := s.taking (.setSpeechLimit r (some n) (some l) (some a))) r _ full)

theorem speechLimitOf_toNat (n : Int) : (speechLimitOf n).toNat = if n ≤ 0 then 0 else (clampInt 10 3600 n).toNat := by
  unfold speechLimitOf
  split <;> rfl

/-- Settles O19. -/
theorem floorSettingCommands : Obligations.FloorSettingCommands := by
  intro r s full
  refine ⟨fun m into out sc => ⟨_, exec_setFloorMode full r m sc, floorSet_becomes rfl (changeMode_plain into out) rfl⟩,
    fun m into out sc => ⟨_, exec_setFloorMode full r m sc, floorSet_becomes rfl (changeMode_departs into out) rfl⟩,
    fun out => ⟨_, exec_setFloorMode full r .voice .now, (floorSet_becomes rfl (changeMode_enters out) rfl).1⟩,
    fun n sc few => ⟨_, exec_setOpenLimit full r n sc, setLimit_becomes r sc n (evictDown_within _ (by dsimp only; omega)) rfl⟩,
    fun n sc sound lower => ?lower,
    fun p => ⟨_, exec_setOverflow full r p, (floorSet_becomes rfl rfl rfl).1⟩,
    fun p other => ⟨_, (exec_setPriorityPolicy full r p).trans (next_congr (if_neg other)), (floorSet_becomes rfl rfl (takePolicy_told p s.flc)).1⟩,
    fun n l a => ?speech⟩
  case lower =>
    have evicted := evictDown_evicted (f := { s.flc with limit := (clampInt 1 8 n).toNat }) s.flc.speakers.length
      (((floorSound_iff _).1 sound).1.shrink (List.Sublist.refl _) (List.Sublist.refl _) (fun _ _ part => part) fun _ _ => rfl)
    obtain ⟨frame, told, settings, limit, mode, queue, length, sub, oldest, first⟩ :=
      lowerLimit_evicts r n sc sound lower (.setOpenLimit r (some n) (some sc))
    exact ⟨_, exec_setOpenLimit full r n sc, frame, told, settings, limit, mode, queue, length, sub, oldest, first,
      (setLimit_becomes r sc n rfl evicted.told).2⟩
  case speech =>
    have sets : s.settings.withSpeechLimit n l a = { s.settings with
        speechLimit := if n ≤ 0 then 0 else (clampInt 10 3600 n).toNat
        warningLead := (clampInt 0 120 l).toNat
        expiryAction := a } := by
      rw [← speechLimitOf_toNat]
      rfl
    refine ⟨_, exec_setSpeechLimit full r n l a, ?_⟩
    split
    · exact (floorSet_becomes sets rfl rfl).1
    · exact (floorSet_becomes sets rfl rfl).1

end Sys2Proof.Machine
end

section
/-! PROOF. Promotion at the floor (R24, R33) and the results of a floor change (R37). -/

namespace Sys2Proof.Machine

open Sys2Proof

/-! ## Promotion -/

/-- Promotion with a step for every waiting seat stops only where R24 stops it. -/
theorem promoteHeads_done (e : FloorEnv) (policy : PriorityPolicy) (n : Nat) (f : Flc) (enough : f.queue.length ≤ n) :
    PromotionDone policy (f.promoteHeads e (f.holds policy) n) := by
  induction n generalizing f with
  | zero => exact .inl (List.length_eq_zero_iff.mp (Nat.le_zero.mp enough))
  | succ n ih =>
    unfold Flc.promoteHeads
    split
    · rename_i empty
      exact .inl empty
    · rename_i q rest queue
      split
      · have held : (f.openSeat e q.seat (promotedOrigin q.origin)).holds policy = f.holds policy := rfl
        have fewer : (f.openSeat e q.seat (promotedOrigin q.origin)).queue.length < f.queue.length :=
          List.length_filter_lt_length_iff_exists.2 ⟨q, by simp [queue], by simp⟩
        rw [← held]
        exact ih _ (by omega)
      · rename_i stopped
        rw [Bool.and_eq_true, hasRoom_iff, not_and_or, Nat.not_lt] at stopped
        refine stopped.elim (fun full => .inr (.inl full)) fun kept => .inr (.inr ?_)
        simp only [Bool.not_eq_true', Bool.not_eq_false, Bool.and_eq_true] at kept
        exact ⟨kept.1, q, rest, queue, kept.2⟩

/-- The entry that promotion appends for a head (R21, R24, R34). -/
def headEntry (e : FloorEnv) (f : Flc) (q : QueueEntry) : SpeakerEntry :=
  { seat := q.seat, origin := promotedOrigin q.origin, day := e.day, second := e.second
    remaining := startRemaining e.speechLimit (hasPriority (f.role q.seat)), priority := hasPriority (f.role q.seat), overtime := false }

theorem promoteHeads_entries (e : FloorEnv) (hold : Bool) (n : Nat) (f : Flc) (once : (f.queue.map (·.seat)).Nodup) :
    ∃ m, m ≤ f.queue.length ∧ (f.promoteHeads e hold n).speakers = f.speakers ++ (f.queue.take m).map (headEntry e f) := by
  induction n generalizing f with
  | zero => exact ⟨0, Nat.zero_le _, by simp [Flc.promoteHeads]⟩
  | succ n ih =>
    unfold Flc.promoteHeads
    split
    · exact ⟨0, Nat.zero_le _, by simp⟩
    · rename_i q rest queue
      split
      · rw [queue, List.map_cons, List.nodup_cons] at once
        have tail : (f.openSeat e q.seat (promotedOrigin q.origin)).queue = rest := by
          simp only [Flc.openSeat, queue, List.filter_cons, ne_eq, not_true_eq_false, decide_false, Bool.false_eq_true, ↓reduceIte]
          exact List.filter_eq_self.mpr fun d mem => by simpa using fun same : d.seat = q.seat => once.1 (same ▸ List.mem_map_of_mem mem)
        have entries : headEntry e (f.openSeat e q.seat (promotedOrigin q.origin)) = headEntry e f := by
          funext d
          simp only [headEntry, openSeat_role]
        obtain ⟨m, few, speakers⟩ := ih (f.openSeat e q.seat (promotedOrigin q.origin)) (by rw [tail]; exact once.2)
        rw [tail] at few speakers
        refine ⟨m + 1, by simpa [queue] using few, ?_⟩
        rw [speakers, entries, queue, List.take_succ_cons, List.map_cons]
        exact List.append_assoc f.speakers [headEntry e f q] _
      · exact ⟨0, Nat.zero_le _, by simp⟩

theorem promote_promotes {e : FloorEnv} {st : Settings} {f : Flc} (mode : promotes f.mode st.overflow = true) :
    f.promote e st = f.promoteHeads e (f.holds st.priorityPolicy) f.queue.length := if_pos mode

/-- The heads that open, with their entries (R24). -/
theorem promote_entries {e : FloorEnv} {st : Settings} {f : Flc} (mode : promotes f.mode st.overflow = true) (once : (f.queue.map (·.seat)).Nodup) :
    ∃ n, n ≤ f.queue.length ∧ (f.promote e st).queue = f.queue.drop n ∧
      (f.promote e st).speakers = f.speakers ++ (f.queue.take n).map (headEntry e f) ∧ (0 < n → f.speakers.length + n ≤ f.limit) ∧
      (f.holds st.priorityPolicy = true → ∀ q ∈ f.queue.take n, hasPriority (f.role q.seat) = true) := by
  obtain ⟨n, few, queue, seats, room, held⟩ := promote_heads e st f once
  obtain ⟨m, few', speakers⟩ := promoteHeads_entries e (f.holds st.priorityPolicy) f.queue.length f once
  rw [← promote_promotes mode] at speakers
  have same : m = n := by
    have length := congrArg List.length seats
    simp only [speakers, List.map_append, List.length_append, List.length_map, List.length_take] at length
    omega
  exact ⟨n, few, queue, same ▸ speakers, room, held⟩

theorem PromotionDone.told {policy : PriorityPolicy} {f : Flc} (done : PromotionDone policy f) (lead : Nat) (b : Bool) :
    PromotionDone policy { f.withRings lead with emptyTold := b } := by
  have role : ∀ x, ({ f.withRings lead with emptyTold := b } : Flc).role x = f.role x := fun x => by
    simp [Flc.role, Flc.withRings]
  refine done.imp id (Or.imp id fun ⟨held, q, rest, queue, ordinary⟩ => ⟨held, q, rest, queue, ?_⟩)
  rw [role]
  exact ordinary

theorem floorChange_promoted {cause : FloorCause} {s0 s1 : State} (mode : promotes s1.flc.mode s1.settings.overflow = true)
    (due : promotionDue s0 s1 = true) : PromotionDone s1.settings.priorityPolicy (State.floorChange cause s0 s1).flc := by
  have done := promoteHeads_done s1.floorEnv s1.settings.priorityPolicy s1.flc.queue.length s1.flc (Nat.le_refl _)
  rw [← promote_promotes mode] at done
  rw [floorChange_eq]
  have settled : State.settledFlc s0 s1 = (s1.flc.promote s1.floorEnv s1.settings).withRings s1.settings.warningLead :=
    congrArg (Flc.withRings s1.settings.warningLead) (if_pos due)
  rw [settled]
  exact done.told _ _

/-! ## Every result once -/

/-- The lines of R37's table, in their order. -/
def resultLine : Instr → Nat
  | .floorChangeAtMix _ => 0
  | .floorChangeAtScr _ => 1
  | .liveLampReport _ => 2
  | .floorEmptyReport _ => 3
  | .notice .. => 5
  | _ => 4

/-- The results of a floor change for one seat (R37). -/
def seatResult (s0 s1 : State) (x : Seat) : List Instr :=
  let a := s0.flc.seats.get x
  let b := s1.flc.seats.get x
  (if a.enabled ≠ b.enabled ∨ a.selfMuted ≠ b.selfMuted then [Instr.eligibilityReport x b.eligible] else [])
    ++ (if a.enabled ≠ b.enabled then [.enabledReportAtTbc x b.enabled, .enabledReportAtScr x b.enabled] else [])
    ++ (if a.ring ≠ b.ring then [.ringChange x] else [])

theorem seatResults_eq (s0 s1 : State) : seatResults s0 s1 = allSeats.flatMap (seatResult s0 s1) := rfl

/-- The seat of a result that has one. -/
def seatOfResult : Instr → Option Seat
  | .eligibilityReport x _ => some x
  | .enabledReportAtTbc x _ => some x
  | .enabledReportAtScr x _ => some x
  | .ringChange x => some x
  | _ => none

theorem seatResult_seat {s0 s1 : State} {x : Seat} {i : Instr} (mem : i ∈ seatResult s0 s1 x) : seatOfResult i = some x := by
  simp only [seatResult, List.mem_append, mem_ite_nil, List.mem_cons, List.not_mem_nil, or_false] at mem
  obtain (⟨-, rfl⟩ | ⟨-, rfl | rfl⟩) | ⟨-, rfl⟩ := mem <;> rfl

theorem seatResult_nodup (s0 s1 : State) (x : Seat) : (seatResult s0 s1 x).Nodup := by
  unfold seatResult
  dsimp only
  split <;> split <;> split <;> simp

theorem seatResults_nodup (s0 s1 : State) : (seatResults s0 s1).Nodup := by
  rw [seatResults_eq, List.nodup_flatMap]
  refine ⟨fun x _ => seatResult_nodup s0 s1 x, (List.nodup_finRange _).imp fun other => ?_⟩
  exact fun i here there => other (Option.some.inj ((seatResult_seat here).symm.trans (seatResult_seat there)))

theorem nodup_append_line {a b : List Instr} (n : Nat) (once : a.Nodup) (once' : b.Nodup) (lower : ∀ i ∈ a, resultLine i < n)
    (here : ∀ i ∈ b, resultLine i = n) : (a ++ b).Nodup :=
  once.append once' fun i front back => Nat.ne_of_lt (lower i front) (here i back)

theorem nodup_ite_single (p : Prop) [Decidable p] (i : Instr) : (if p then [i] else []).Nodup := by
  split <;> simp

/-- No result of a floor change is sent twice (R37). -/
theorem floorResults_nodup (cause : FloorCause) (s0 s1 : State) : (floorResults cause s0 s1).Nodup := by
  have mix : ∀ i ∈ mixResult s0 s1, resultLine i = 0 := fun i mem => by
    obtain ⟨v, rfl, -⟩ := (mem_mixResult ..).mp mem
    rfl
  have scr : ∀ i ∈ scrResult s0 s1, resultLine i = 1 := fun i mem => by
    obtain ⟨v, rfl, -⟩ := (mem_scrResult ..).mp mem
    rfl
  have lamp : ∀ i ∈ lampResult s0 s1, resultLine i = 2 := fun i mem => by
    obtain ⟨b, rfl, -⟩ := (mem_lampResult ..).mp mem
    rfl
  have empty : ∀ i ∈ emptyResult s1, resultLine i = 3 := fun i mem => by
    obtain ⟨b, rfl, -⟩ := (mem_emptyResult ..).mp mem
    rfl
  have seats : ∀ i ∈ seatResults s0 s1, resultLine i = 4 := fun i mem => by
    obtain ⟨x, b, rfl, -⟩ | ⟨x, b, rfl, -⟩ | ⟨x, b, rfl, -⟩ | ⟨x, rfl, -⟩ := (mem_seatResults ..).mp mem <;> rfl
  have notice : ∀ i ∈ noticeResult cause s0 s1, resultLine i = 5 := fun i mem => by
    obtain ⟨k, p, rfl, -⟩ := (mem_noticeResult ..).mp mem
    rfl
  have below : ∀ {a b : List Instr} {n : Nat}, (∀ i ∈ a, resultLine i < n) → (∀ i ∈ b, resultLine i = n) →
      ∀ i ∈ a ++ b, resultLine i < n + 1 := fun lower here i mem =>
    (List.mem_append.mp mem).elim (fun m => Nat.lt_succ_of_lt (lower i m)) fun m => (here i m).symm ▸ Nat.lt_succ_self _
  have upTo0 : ∀ i ∈ mixResult s0 s1, resultLine i < 1 := fun i mem => (mix i mem).symm ▸ Nat.one_pos
  have upTo1 := below upTo0 scr
  have upTo2 := below upTo1 lamp
  have upTo3 := below upTo2 empty
  have upTo4 := below upTo3 seats
  exact nodup_append_line 5 (nodup_append_line 4 (nodup_append_line 3 (nodup_append_line 2 (nodup_append_line 1 (nodup_ite_single ..)
    (nodup_ite_single ..) upTo0 scr) (nodup_ite_single ..) upTo1 lamp) (nodup_ite_single ..) upTo2 empty) (seatResults_nodup s0 s1) upTo3 seats)
    (nodup_ite_single ..) upTo4 notice

/-- Settles O22. -/
theorem promotionOpensHeads : Obligations.PromotionOpensHeads := by
  refine ⟨fun e st f mode once => ⟨?_, promote_entries mode once⟩, fun cause s0 s1 mode moved => floorChange_promoted mode ?_, fun cause s0 s1 => ⟨?_, ?_⟩⟩
  · rw [promote_promotes mode]
    exact promoteHeads_done e st.priorityPolicy _ f (Nat.le_refl _)
  · simp only [promotionDue, Bool.or_eq_true, decide_eq_true_eq]
    tauto
  · rw [floorChange_eq]
    simp only [Flc.isEmpty, Bool.and_eq_true, List.isEmpty_iff]
  · obtain ⟨out, sent, told⟩ := floorChange_sends cause s0 s1
    refine ⟨out, sent, ?_, told⟩
    have results : out = floorResults cause s0 { s1 with flc := State.settledFlc s0 s1 } := List.append_cancel_left (sent.symm.trans rfl)
    rw [results]
    exact floorResults_nodup ..

end Sys2Proof.Machine
end

section
/-! PROOF. Meetings at the floor (R20, R43 to R45): what an activation, an ending, an attendee edit and a seating state make of it. -/

namespace Sys2Proof.Machine

open Sys2Proof

/-! ## Seats that leave the collections -/

/-- Seats only leave the collections. -/
structure Fewer (f g : Flc) : Prop where
  speakers : (g.speakers.map (·.seat)).Sublist (f.speakers.map (·.seat))
  queue : (g.queue.map (·.seat)).Sublist (f.queue.map (·.seat))
  overrides : g.overrides.Sublist f.overrides
  told : g.emptyTold = f.emptyTold

theorem Fewer.refl (f : Flc) : Fewer f f := ⟨.refl _, .refl _, .refl _, rfl⟩

theorem Fewer.trans {f g k : Flc} (a : Fewer f g) (b : Fewer g k) : Fewer f k :=
  ⟨b.speakers.trans a.speakers, b.queue.trans a.queue, b.overrides.trans a.overrides, b.told.trans a.told⟩

theorem Fewer.put {f g : Flc} (less : Fewer f g) (x : Seat) (v : FlcSeat) : Fewer f (g.put x v) :=
  ⟨less.speakers, less.queue, less.overrides, less.told⟩

theorem fewer_leaveCollections (x : Seat) (f : Flc) : Fewer f (f.leaveCollections x) :=
  ⟨List.filter_sublist.map _, List.filter_sublist.map _, List.filter_sublist, rfl⟩

theorem fewer_disable (x : Seat) (f : Flc) : Fewer f (f.disable x) := ((fewer_leaveCollections x f).put ..).put ..

theorem fewer_assignRole (limit : Nat) (x : Seat) (role : Role) (f : Flc) : Fewer f (f.assignRole limit x role) := by
  unfold Flc.assignRole
  split
  · exact .refl f
  · refine ⟨?_, .refl _, ?_, rfl⟩
    · have seat : ∀ e : SpeakerEntry, (if e.seat = x then e.rerolled limit role else e).seat = e.seat := fun e => by
        split <;> rfl
      simp [Function.comp_def, seat]
    · split
      · exact .refl _
      · exact List.filter_sublist

theorem fewer_foldl {step : Flc → Seat → Flc} (each : ∀ g x, Fewer g (step g x)) (l : List Seat) (f : Flc) : Fewer f (l.foldl step f) := by
  induction l generalizing f with
  | nil => exact .refl f
  | cons x l ih => exact (each f x).trans (ih _)

/-- A seat that neither speaks nor waits nor overrides. -/
structure Absent (x : Seat) (f : Flc) : Prop where
  speakers : x ∉ f.speakers.map (·.seat)
  queue : x ∉ f.queue.map (·.seat)
  overrides : x ∉ f.overrides

theorem Absent.fewer {x : Seat} {f g : Flc} (out : Absent x f) (less : Fewer f g) : Absent x g :=
  ⟨fun mem => out.speakers (less.speakers.subset mem), fun mem => out.queue (less.queue.subset mem), fun mem => out.overrides (less.overrides.subset mem)⟩

theorem absent_leaveCollections (x : Seat) (f : Flc) : Absent x (f.leaveCollections x) := by
  constructor <;> simp [Flc.leaveCollections, Flc.closeSeat, Flc.withdraw]

theorem absent_disable (x : Seat) (f : Flc) : Absent x (f.disable x) :=
  have out := absent_leaveCollections x f
  ⟨out.speakers, out.queue, out.overrides⟩

theorem absent_foldl {step : Flc → Seat → Flc} {x : Seat} (each : ∀ g y, Fewer g (step g y)) (out : ∀ g, Absent x (step g x)) {l : List Seat}
    (mem : x ∈ l) (f : Flc) : Absent x (l.foldl step f) := by
  induction l generalizing f with
  | nil => cases mem
  | cons y l ih =>
    obtain here | later := List.mem_cons.mp mem
    · subst here
      exact (out f).fewer (fewer_foldl each l _)
    · exact ih later _

theorem all_absent {f : Flc} (out : ∀ x, Absent x f) : f.speakers = [] ∧ f.queue = [] ∧ f.overrides = [] :=
  ⟨List.map_eq_nil_iff.mp (List.eq_nil_iff_forall_not_mem.mpr fun x => (out x).speakers),
    List.map_eq_nil_iff.mp (List.eq_nil_iff_forall_not_mem.mpr fun x => (out x).queue), List.eq_nil_iff_forall_not_mem.mpr fun x => (out x).overrides⟩

/-- The seats after a pass that changes the record of each seat alone. -/
theorem seats_foldl {step : Flc → Seat → Flc} {new : Seat → FlcSeat → FlcSeat}
    (each : ∀ g x y, (step g x).seats.get y = if y = x then new x (g.seats.get x) else g.seats.get y) {l : List Seat} (once : l.Nodup) (f : Flc) (y : Seat) :
    (l.foldl step f).seats.get y = if y ∈ l then new y (f.seats.get y) else f.seats.get y := by
  induction l generalizing f with
  | nil => rfl
  | cons x l ih =>
    obtain ⟨new_x, once⟩ := List.nodup_cons.mp once
    rw [List.foldl_cons, ih once, each]
    by_cases here : y = x
    · subst here
      rw [if_neg new_x, if_pos rfl, if_pos List.mem_cons_self]
    · simp only [if_neg here, List.mem_cons, or_iff_right here]

theorem allSeats_nodup : allSeats.Nodup := List.nodup_finRange _

/-! ## Floors with an empty queue -/

/-- With nobody waiting, promotion opens nobody, and every mark stays (R24). -/
theorem settled_of_no_queue {st : Settings} {f g : Flc} (settled : FloorSettled st f g) (empty : f.queue = []) :
    g.speakers = f.speakers ∧ g.queue = [] ∧
      ∀ x, g.seats.get x = { f.seats.get x with ring := (g.seats.get x).ring } := by
  obtain ⟨n, few, queue, speakers, -, -⟩ := settled.heads (by simp [empty])
  have opened : n = 0 := by simpa [empty] using few
  subst opened
  have same := congrArg List.length speakers
  simp only [List.take_zero, List.map_nil, List.append_nil, List.length_map] at same
  refine ⟨(settled.speakers.eq_of_length same.symm).symm, by simpa [empty] using queue, fun x => ?_⟩
  obtain ⟨enabled, role, participant, online⟩ := settled.fields x
  obtain ⟨selfMuted, flash⟩ := settled.marks x (by simp [Flc.waits, empty])
  generalize g.seats.get x = a at *
  generalize f.seats.get x = b at *
  cases a
  cases b
  simp_all

/-- A seat out of the collections stays out, and keeps its marks, whoever is promoted. -/
theorem settled_absent {st : Settings} {f g : Flc} (settled : FloorSettled st f g) {x : Seat} (out : Absent x f) :
    (∀ e ∈ g.speakers, e.seat ≠ x) ∧ (∀ q ∈ g.queue, q.seat ≠ x) ∧ x ∉ g.overrides ∧ (g.seats.get x).selfMuted = (f.seats.get x).selfMuted := by
  have waits : ∀ q ∈ f.queue, q.seat ≠ x := fun q mem here => out.queue (here ▸ List.mem_map_of_mem mem)
  refine ⟨fun e mem here => ?_, fun q mem => waits q (settled.queue.subset mem), settled.overrides ▸ out.overrides,
    (settled.marks x (by simpa [Flc.waits] using waits)).1⟩
  obtain spoke | ⟨q, queued, seat, -⟩ := settled.opened e mem
  · exact out.speakers (here ▸ List.mem_map_of_mem spoke)
  · exact waits q queued (seat.trans here)

/-! ## Activation and ending (R43, R44) -/

theorem enables_unlisted {p : SeatPlan} (empty : p.attendees = []) (policy : LockPolicy) (x : Seat) (online enabled : Bool) :
    p.enables policy x online enabled = (online || (policy = .free && enabled)) := by
  unfold SeatPlan.enables
  rw [if_pos empty]
  cases online <;> cases policy <;> simp

theorem enables_listed {p : SeatPlan} (listed : p.attendees ≠ []) (policy : LockPolicy) (x : Seat) (online enabled : Bool) :
    p.enables policy x online enabled = (p.names x || (policy = .free && enabled)) := by
  unfold SeatPlan.enables
  rw [if_neg listed]
  cases p.names x <;> cases policy <;> simp

theorem activate_seat (st : Settings) (a : Activation) (f : Flc) (x : Seat) : (f.activate st a).seats.get x = { f.seats.get x with
    selfMuted := false
    flash := none
    role := a.plan.roleOf x
    participant := a.plan.participantOf x
    enabled := a.plan.enables a.policy x (f.seats.get x).online (f.seats.get x).enabled } := by
  simp [Flc.activate, Flc.emptied]

theorem endMeeting_seat (st : Settings) (policy : LockPolicy) (seating : Seating) (f : Flc) (x : Seat) :
    (f.endMeeting st policy seating).seats.get x = { f.seats.get x with
      selfMuted := false
      flash := none
      role := .ordinary
      participant := none
      enabled := policy = .free && (f.seats.get x).online } := by
  cases policy <;> simp [Flc.endMeeting, Flc.emptied]

/-! ## Attendee edits (R45) -/

/-- The record of a seat after an attendee edit, without its role (R45, log 12). -/
def editedSeat (old new : SeatPlan) (policy : LockPolicy) (x : Seat) (t : FlcSeat) : FlcSeat :=
  let disabled : FlcSeat := { t with enabled := false, selfMuted := false, flash := none }
  if new.attendees = [] ∧ old.attendees ≠ [] then
    if new.enables policy x t.online t.enabled then { t with participant := none, enabled := true } else { disabled with participant := none }
  else if new.names x then
    { t with
      enabled := t.enabled || (new.lists x && !old.lists x) || !old.names x
      participant := if new.lists x then new.participantOf x else t.participant }
  else if old.attendees = [] ∧ new.attendees ≠ [] then if policy = .locked then disabled else t
  else if old.lists x then if policy = .locked then disabled else { t with participant := none }
  else if old.names x then if policy = .locked then disabled else t
  else t

theorem put_seats (f : Flc) (x y : Seat) (v : FlcSeat) : (f.put x v).seats.get y = if y = x then v else f.seats.get y := Tab.get_upd ..

theorem disable_seats (x : Seat) (f : Flc) (y : Seat) : (f.disable x).seats.get y =
    if y = x then { f.seats.get x with enabled := false, selfMuted := false, flash := none } else f.seats.get y := by
  rw [disable_eq]
  exact Tab.get_upd ..

theorem leaveCollections_seats (x : Seat) (f : Flc) : (f.leaveCollections x).seats = f.seats := rfl

theorem editSeat_seats (old new : SeatPlan) (policy : LockPolicy) (f : Flc) (x y : Seat) : (f.editSeat old new policy x).seats.get y =
    if y = x then editedSeat old new policy x (f.seats.get x) else f.seats.get y := by
  have same : (if y = x then f.seats.get x else f.seats.get y) = f.seats.get y := by
    split
    · rename_i here
      rw [here]
    · rfl
  unfold Flc.editSeat editedSeat
  dsimp only
  split
  case isTrue =>
    have seats : (if old.lists x && !new.names x then f.leaveCollections x else f).seats = f.seats := by
      split <;> rfl
    generalize (if old.lists x && !new.names x then f.leaveCollections x else f) = g at seats
    split
    · rw [put_seats, put_seats, put_seats, seats]
      split <;> simp_all
    · rw [disable_seats, put_seats, put_seats, seats]
      split <;> simp_all
  case isFalse =>
    split
    · exact put_seats ..
    · split
      · cases policy
        · exact disable_seats ..
        · exact same.symm
      · split
        · cases policy
          · exact disable_seats ..
          · exact put_seats ..
        · split
          · cases policy
            · exact disable_seats ..
            · exact same.symm
          · exact same.symm

theorem fewer_editSeat (old new : SeatPlan) (policy : LockPolicy) (f : Flc) (x : Seat) : Fewer f (f.editSeat old new policy x) := by
  unfold Flc.editSeat
  dsimp only
  split
  case isTrue =>
    have less : Fewer f (if old.lists x && !new.names x then f.leaveCollections x else f) := by
      split
      · exact fewer_leaveCollections x f
      · exact .refl f
    generalize (if old.lists x && !new.names x then f.leaveCollections x else f) = g at less
    split
    · exact (less.put ..).put ..
    · exact (less.put ..).trans (fewer_disable ..)
  case isFalse =>
    split
    · exact (Fewer.refl f).put ..
    · split
      · cases policy
        · exact fewer_disable ..
        · exact .refl f
      · split
        · cases policy
          · exact fewer_disable ..
          · exact (fewer_leaveCollections x f).put ..
        · split
          · cases policy
            · exact fewer_disable ..
            · exact .refl f
          · exact .refl f

/-- A dropped seat leaves the collections, under either lock policy (R45). -/
theorem absent_editSeat {old new : SeatPlan} {x : Seat} (listed : new.attendees ≠ []) (unnamed : new.names x = false) (dropped : old.lists x = true)
    (policy : LockPolicy) (f : Flc) : Absent x (f.editSeat old new policy x) := by
  have filled : old.attendees ≠ [] := fun empty => by simp [SeatPlan.lists, empty] at dropped
  unfold Flc.editSeat
  rw [if_neg fun h => listed h.1, if_neg (by simp [unnamed]), if_neg fun h => filled h.1, if_pos dropped]
  cases policy
  · exact absent_disable ..
  · have out := absent_leaveCollections x f
    exact ⟨out.speakers, out.queue, out.overrides⟩

/-- The pass of an attendee edit over the seats (R45). -/
def Flc.editSeats (new : SeatPlan) (policy : LockPolicy) (f : Flc) : Flc := allSeats.foldl (fun g x => g.editSeat f.plan new policy x) f

/-- The pass that gives every seat its role under the new plan (R45). -/
def Flc.giveRoles (limit : Nat) (new : SeatPlan) (f : Flc) : Flc := allSeats.foldl (fun g x => g.assignRole limit x (new.roleOf x)) f

theorem editPlan_eq (st : Settings) (new : SeatPlan) (policy : LockPolicy) (f : Flc) : f.editPlan st new policy =
    { (f.editSeats new policy).giveRoles st.speechLimit new with plan := new, seating := editedSeating f.plan new policy f.seating } := rfl

theorem editSeats_seats (new : SeatPlan) (policy : LockPolicy) (f : Flc) (x : Seat) :
    (f.editSeats new policy).seats.get x = editedSeat f.plan new policy x (f.seats.get x) := by
  have edited := seats_foldl (editSeat_seats f.plan new policy) allSeats_nodup f x
  rw [if_pos (mem_allSeats x)] at edited
  exact edited

theorem giveRoles_seats (limit : Nat) (new : SeatPlan) (f : Flc) (x : Seat) :
    (f.giveRoles limit new).seats.get x = { f.seats.get x with role := new.roleOf x } := by
  have roled := seats_foldl (new := fun x t => { t with role := new.roleOf x }) (fun g y => assignRole_seats limit y (new.roleOf y) g) allSeats_nodup f x
  rw [if_pos (mem_allSeats x)] at roled
  exact roled

theorem fewer_editSeats (new : SeatPlan) (policy : LockPolicy) (f : Flc) : Fewer f (f.editSeats new policy) :=
  fewer_foldl (fewer_editSeat f.plan new policy) allSeats f

theorem fewer_giveRoles (limit : Nat) (new : SeatPlan) (f : Flc) : Fewer f (f.giveRoles limit new) :=
  fewer_foldl (fun g x => fewer_assignRole limit x (new.roleOf x) g) allSeats f

/-- The seats after an attendee edit (R45). -/
theorem editPlan_seats (st : Settings) (new : SeatPlan) (policy : LockPolicy) (f : Flc) (x : Seat) : (f.editPlan st new policy).seats.get x =
    { editedSeat f.plan new policy x (f.seats.get x) with role := new.roleOf x } := by
  rw [editPlan_eq, giveRoles_seats, editSeats_seats]

theorem fewer_editPlan (st : Settings) (new : SeatPlan) (policy : LockPolicy) (f : Flc) : Fewer f (f.editPlan st new policy) := by
  have less := (fewer_editSeats new policy f).trans (fewer_giveRoles st.speechLimit new _)
  rw [editPlan_eq]
  generalize (f.editSeats new policy).giveRoles st.speechLimit new = g at less
  exact ⟨less.speakers, less.queue, less.overrides, less.told⟩

theorem absent_editPlan {new : SeatPlan} {f : Flc} {x : Seat} (listed : new.attendees ≠ []) (unnamed : new.names x = false)
    (dropped : f.plan.lists x = true) (st : Settings) (policy : LockPolicy) : Absent x (f.editPlan st new policy) := by
  have out : Absent x (f.editSeats new policy) :=
    absent_foldl (fewer_editSeat f.plan new policy) (absent_editSeat listed unnamed dropped policy) (mem_allSeats x) f
  have left := out.fewer (fewer_giveRoles st.speechLimit new _)
  rw [editPlan_eq]
  generalize (f.editSeats new policy).giveRoles st.speechLimit new = g at left
  exact ⟨left.speakers, left.queue, left.overrides⟩

section
variable {old new : SeatPlan} {policy : LockPolicy} {x : Seat} (t : FlcSeat)

theorem listed_of_lists (lists : new.lists x = true) : new.attendees ≠ [] := fun empty => by simp [SeatPlan.lists, empty] at lists

theorem names_of_lists (lists : new.lists x = true) : new.names x = true := by simp [SeatPlan.names, lists]

theorem editedSeat_named (lists : new.lists x = true) : editedSeat old new policy x t = { t with
    enabled := t.enabled || (new.lists x && !old.lists x) || !old.names x
    participant := new.participantOf x } := by
  unfold editedSeat
  dsimp only
  rw [if_neg fun h => listed_of_lists lists h.1, if_pos (names_of_lists lists), if_pos lists]

theorem editedSeat_dropped (listed : new.attendees ≠ []) (unnamed : new.names x = false) (dropped : old.lists x = true) :
    editedSeat old new policy x t = if policy = .locked then { t with enabled := false, selfMuted := false, flash := none }
      else { t with participant := none } := by
  unfold editedSeat
  dsimp only
  rw [if_neg fun h => listed h.1, if_neg (by simp [unnamed]), if_neg fun h => listed_of_lists dropped h.1, if_pos dropped]

theorem editedSeat_emptying (empty : new.attendees = []) (filled : old.attendees ≠ []) :
    (editedSeat old new policy x t).participant = none ∧
      (editedSeat old new policy x t).enabled = (t.online || (policy = .free && t.enabled)) := by
  unfold editedSeat
  dsimp only
  rw [if_pos ⟨empty, filled⟩, ← enables_unlisted empty policy x t.online t.enabled]
  split
  · rename_i enables
    exact ⟨rfl, enables.symm⟩
  · rename_i disables
    exact ⟨rfl, (Bool.not_eq_true _ ▸ disables).symm⟩

theorem editedSeat_filling (listed : new.attendees ≠ []) (was : old.attendees = []) (unnamed : new.names x = false) :
    (editedSeat old new policy x t).enabled = (policy = .free && t.enabled) := by
  unfold editedSeat
  dsimp only
  rw [if_neg fun h => listed h.1, if_neg (by simp [unnamed]), if_pos ⟨was, listed⟩]
  cases policy <;> simp

end

/-! ## Seating states (R20) -/

theorem takeSeating_held (seating : Seating) (f : Flc) : f.takeSeating seating true = { f with seating := seating } := by
  unfold Flc.takeSeating
  rw [Bool.true_or, if_pos rfl]

theorem takeSeating_same (f : Flc) : f.takeSeating f.seating false = f := if_pos (by simp)

theorem takeSeating_open {f : Flc} (was : f.seating ≠ .openRoom) : f.takeSeating .openRoom false = { f with
    seating := .openRoom
    seats := Tab.gen fun x => if (f.seats.get x).online && !(f.seats.get x).enabled then
        { f.seats.get x with enabled := true, role := .ordinary, participant := none }
      else f.seats.get x } := if_neg (by simp [was])

/-- The floor of a room that becomes LOCKED-ROOM outside a meeting (R20). -/
def Flc.locked (f : Flc) : Flc := allSeats.foldl (fun g x => g.disable x) { f with seating := .lockedRoom }

theorem takeSeating_locked {f : Flc} (was : f.seating ≠ .lockedRoom) : f.takeSeating .lockedRoom false = f.locked := if_neg (by simp [was])

theorem locked_seating (f : Flc) : f.locked.seating = .lockedRoom := by
  have kept : ∀ (l : List Seat) (g : Flc), (l.foldl (fun g x => g.disable x) g).seating = g.seating := fun l => by
    induction l with
    | nil => exact fun _ => rfl
    | cons x l ih => exact fun g => (ih _).trans rfl
  exact kept ..

theorem locked_seats (f : Flc) (x : Seat) : f.locked.seats.get x = { f.seats.get x with enabled := false, selfMuted := false, flash := none } := by
  have disabled := seats_foldl (new := fun _ t => { t with enabled := false, selfMuted := false, flash := none })
    (fun g y => disable_seats y g) allSeats_nodup { f with seating := .lockedRoom } x
  rw [if_pos (mem_allSeats x)] at disabled
  exact disabled

theorem fewer_locked (f : Flc) : Fewer { f with seating := .lockedRoom } f.locked := fewer_foldl (fun g x => fewer_disable x g) allSeats _

theorem locked_empty (f : Flc) : f.locked.speakers = [] ∧ f.locked.queue = [] ∧ f.locked.overrides = [] :=
  all_absent fun x => absent_foldl (fun g y => fewer_disable y g) (absent_disable x) (mem_allSeats x) _

theorem exec_activationReport (a : Activation) (s : State) : exec (.activationReport a) s =
    .next ((s.taking (.activationReport a)).floorEdit .report (Flc.activate s.settings a)) := rfl

theorem exec_endingReport (policy : LockPolicy) (seating : Seating) (s : State) : exec (.endingReport policy seating) s =
    .next ((s.taking (.endingReport policy seating)).floorEdit .report (Flc.endMeeting s.settings policy seating)) := rfl

theorem exec_attendeeEditReport (plan : SeatPlan) (policy : LockPolicy) (s : State) : exec (.attendeeEditReport plan policy) s =
    .next ((s.taking (.attendeeEditReport plan policy)).floorEdit .report (Flc.editPlan s.settings plan policy)) := rfl

/-- Settles O16. -/
theorem meetingsReachTheFloor : Obligations.MeetingsReachTheFloor := by
  intro a plan policy seating s
  refine ⟨?activation, ?ending, ?edit, ⟨_, rfl, floorBecomes_only (takeSeating_held seating s.flc) rfl⟩,
    ⟨_, rfl, floorBecomes_only (takeSeating_same s.flc) rfl⟩, fun was => ?locked, fun was => ⟨_, rfl, floorBecomes_only (takeSeating_open was) rfl⟩⟩
  case activation =>
    obtain ⟨frame, settings, settled, told⟩ := floorBecomes_only (cause := .report) (s := s) (c := .activationReport a)
      (edit := Flc.activate s.settings a) rfl rfl
    obtain ⟨speakers, queue, seats⟩ := settled_of_no_queue settled rfl
    refine ⟨_, exec_activationReport a s, frame, told, settings, speakers, queue, settled.overrides, settled.mode, settled.limit, settled.seating, settled.plan, fun x => ?_⟩
    rw [seats x, activate_seat]
    exact ⟨rfl, rfl, rfl, rfl, rfl, fun empty => enables_unlisted empty .., fun listed => enables_listed listed ..⟩
  case ending =>
    obtain ⟨frame, settings, settled, told⟩ := floorBecomes_only (cause := .report) (s := s) (c := .endingReport policy seating)
      (edit := Flc.endMeeting s.settings policy seating) rfl rfl
    obtain ⟨speakers, queue, seats⟩ := settled_of_no_queue settled rfl
    refine ⟨_, exec_endingReport policy seating s, frame, told, settings, speakers, queue, settled.overrides, settled.mode, settled.limit, settled.seating, settled.plan, fun x => ?_⟩
    rw [seats x, endMeeting_seat]
    exact ⟨rfl, rfl, rfl, rfl, rfl⟩
  case edit =>
    obtain ⟨frame, settings, settled, told⟩ := floorBecomes_only (cause := .report) (s := s) (c := .attendeeEditReport plan policy)
      (edit := Flc.editPlan s.settings plan policy) rfl (fewer_editPlan ..).told
    have seatingNow := settled.seating
    refine ⟨_, exec_attendeeEditReport plan policy s, frame, told, settings, settled.plan, fun x => ?_⟩
    obtain ⟨enabled, role, participant, -⟩ := settled.fields x
    have mute := fun listed unnamed dropped => settled_absent settled (absent_editPlan (x := x) listed unnamed dropped s.settings policy)
    rw [editPlan_seats] at enabled role participant mute
    rw [enabled, role, participant, seatingNow]
    refine ⟨rfl, fun lists => ?_, fun lists wasOff => ?_, fun lock listed unnamed dropped => ?_, fun free listed unnamed dropped => ?_,
      fun empty filled => ?_, fun listed was => ⟨fun lock => ?_, fun free => ?_, fun unnamed => editedSeat_filling _ listed was unnamed⟩⟩
    · rw [editedSeat_named _ lists]
    · rw [editedSeat_named _ lists, lists, wasOff]
      simp
    · obtain ⟨speakers, queue, -, -⟩ := mute listed unnamed dropped
      rw [editedSeat_dropped _ listed unnamed dropped, if_pos lock]
      exact ⟨rfl, speakers, queue⟩
    · obtain ⟨speakers, queue, overrides, muted⟩ := mute listed unnamed dropped
      rw [editedSeat_dropped _ listed unnamed dropped, if_neg (by simp [free])] at muted ⊢
      exact ⟨rfl, rfl, muted, speakers, queue, overrides⟩
    · obtain ⟨none_, enables⟩ := editedSeat_emptying (policy := policy) (x := x) (s.flc.seats.get x) empty filled
      exact ⟨if_pos ⟨empty, filled⟩, none_, enables⟩
    · subst lock
      exact (if_neg fun h => listed h.1).trans (if_pos ⟨listed, was⟩)
    · subst free
      exact (if_neg fun h => listed h.1).trans (if_pos ⟨listed, was⟩)
  case locked =>
    obtain ⟨frame, settings, settled, told⟩ := floorBecomes_only (cause := .report) (s := s) (c := .seatingReport .lockedRoom false)
      (edit := Flc.takeSeating .lockedRoom false) (takeSeating_locked was) (fewer_locked s.flc).told
    obtain ⟨noSpeaker, noQueue, noOverride⟩ := locked_empty s.flc
    obtain ⟨speakers, queue, seats⟩ := settled_of_no_queue settled noQueue
    refine ⟨_, rfl, frame, told, settings, settled.seating.trans (locked_seating s.flc), speakers.trans noSpeaker, queue,
      settled.overrides.trans noOverride, fun x => ?_⟩
    have seat := seats x
    rw [locked_seats] at seat
    exact seat

end Sys2Proof.Machine
end

section
/-! PROOF. The screens (chapter 5): what one event at the Screen Router comes to, said once; the contents that are derived; and the reports,
keys, signals and timers. -/

namespace Sys2Proof.Machine

open Sys2Proof

/-! ## Derived contents (R94, R105, R107) -/

theorem compositions_get (s : State) (c : Screen) : s.compositions.get c = s.compositionOf c := by
  cases c <;> rfl

theorem entryIn_none {v : Scr} {k : SlotId} (held : ∀ e ∈ v.shares, e.state.slot ≠ some k) : v.entryIn k = none :=
  List.find?_eq_none.mpr fun e mem => by simpa using held e mem

theorem slotShows_shownIn (t : State) (k : SlotId) : SlotShows t k (t.scr.shownIn t.settings k) := by
  refine ⟨fun source => ?_, fun source => ?_, fun source => ?_, fun source unheld => ?_, fun source e held => ?_⟩
  · rw [Scr.shownIn, source]
  · rw [Scr.shownIn, source]
  · rw [Scr.shownIn, source]
  · unfold Scr.shownIn
    rw [source, entryIn_none unheld]
  · have entry : t.scr.entryIn k = some e := held
    unfold Scr.shownIn
    rw [source, entry]

theorem captionText_dark {t : State} (dark : isDark t.scr.power = true) : t.captionText = none := if_neg (by simp [dark])

theorem captionText_silent {t : State} (silent : t.settings.caption = false ∨ t.scr.speakers = []) : t.captionText = none := by
  unfold State.captionText
  obtain off | empty := silent
  · rw [if_neg (by simp [off])]
  · rw [empty]
    split <;> rfl

theorem captionText_speaking {t : State} (light : isDark t.scr.power = false) (on : t.settings.caption = true) {e : SpeakerView}
    (last : t.scr.speakers.getLast? = some e) : t.captionText = some (match (t.scr.seats.get e.seat).participant with
      | some p => (t.participant (some p)).name
      | none => seatCaption e.seat) := by
  unfold State.captionText
  rw [if_pos (by simp [light, on]), last] <;> rfl

/-- Screens whose compositions are the ones of the moment are derived (R94). -/
theorem screensDerived_of_compositions {t : State} (derived : t.scr.screens = t.compositions) : ScreensDerived t := by
  intro c
  rw [derived, compositions_get]
  refine ⟨rfl, ?_, fun dark => ?_, fun light => ?_⟩
  · cases layout : t.settings.layout.get c <;> simp [State.compositionOf, layout]
  · refine ⟨if_pos dark, fun v mem => ?_, captionText_dark dark⟩
    dsimp only [State.compositionOf] at mem
    split at mem
    · exact (Option.some.inj mem).symm
    · cases mem
  · have shown : ∀ k, (if isDark t.scr.power then Shown.black else t.scr.shownIn t.settings k) = t.scr.shownIn t.settings k :=
      fun k => if_neg (by simp [light])
    refine ⟨?_, fun v mem => ?_, fun silent => captionText_silent silent, fun e on last => captionText_speaking light on last⟩
    · have left : (t.compositionOf c).left = t.scr.shownIn t.settings (leftSlot c) := shown _
      rw [left]
      exact slotShows_shownIn ..
    · dsimp only [State.compositionOf] at mem
      split at mem
      · rw [shown] at mem
        exact Option.some.inj mem ▸ slotShows_shownIn ..
      · cases mem

theorem floorMark_speaking {v : Scr} {x : Seat} {e : SpeakerView} (found : v.speakers.find? (fun d => d.seat = x) = some e) :
    v.floorMark x = .speaking (speakTime v.lead e.remaining e.overtime) := by
  unfold Scr.floorMark
  rw [found]

theorem floorMark_queued {v : Scr} {x : Seat} (silent : ∀ e ∈ v.speakers, e.seat ≠ x) : v.floorMark x =
    match v.queue.findIdx? (fun q => q = x) with
    | some i => .queued (i + 1)
    | none => .nothing := by
  have unfound : v.speakers.find? (fun d => d.seat = x) = none := List.find?_eq_none.mpr fun e mem => by simpa using silent e mem
  unfold Scr.floorMark
  rw [unfound] <;> rfl

/-- Nameplates that are the ones of the moment are derived (R107). -/
theorem platesDerived_of_plateOf {t : State} (derived : ∀ x, (t.scr.seats.get x).plate = t.plateOf x) : PlatesDerived t := by
  intro x
  dsimp only
  rw [derived x]
  refine ⟨fun dark => if_pos dark, fun light => ?_⟩
  have plate : t.plateOf x = ⟨(t.participant (t.scr.seats.get x).participant).name, (t.participant (t.scr.seats.get x).participant).note,
      (t.scr.seats.get x).role, t.scr.floorMark x, t.scr.endingMark⟩ := if_neg (by simp [light])
  rw [plate]
  refine ⟨rfl, rfl, rfl, rfl, fun e found => floorMark_speaking found, fun silent unqueued => ?_, fun silent i queued => ?_⟩
  · have none_queued : t.scr.queue.findIdx? (fun q => q = x) = none :=
      List.findIdx?_eq_none_iff.mpr fun q mem => by simpa using fun same : q = x => unqueued (same ▸ mem)
    exact (floorMark_queued silent).trans (by rw [none_queued])
  · exact (floorMark_queued silent).trans (by rw [queued])

/-! ## One event at the screens (R109) -/

theorem screenChange_seat (cause : ShareCause) (s0 s1 : State) (x : Seat) : (State.screenChange cause true s0 s1).scr.seats.get x =
    { s1.placeShares.scr.seats.get x with plate := s1.placeShares.deriveScreens.plateOf x } := Tab.get_gen _ x

/-- A screen change derives both compositions (R94, R109). -/
theorem screenChange_derived (cause : ShareCause) (plates : Bool) (s0 s1 : State) : ScreensDerived (State.screenChange cause plates s0 s1) := by
  refine screensDerived_of_compositions ?_
  cases plates with
  | false => rfl
  | true =>
    have caption : (State.screenChange cause true s0 s1).captionText = s1.placeShares.captionText := by
      have participant : ∀ x, ((State.screenChange cause true s0 s1).scr.seats.get x).participant = (s1.placeShares.scr.seats.get x).participant :=
        fun x => by rw [screenChange_seat]
      unfold State.captionText
      simp only [participant] <;> rfl
    have composition : ∀ c, (State.screenChange cause true s0 s1).compositionOf c = s1.placeShares.compositionOf c := fun c => by
      unfold State.compositionOf
      rw [caption]
      rfl
    unfold State.compositions
    rw [composition, composition]
    rfl

/-- A screen change of R107's list derives every nameplate. -/
theorem screenChange_plates (cause : ShareCause) (s0 s1 : State) : PlatesDerived (State.screenChange cause true s0 s1) := by
  refine platesDerived_of_plateOf fun x => ?_
  have plate : (State.screenChange cause true s0 s1).plateOf x = s1.placeShares.deriveScreens.plateOf x := by
    unfold State.plateOf
    rw [screenChange_seat]
    rfl
  rw [plate, screenChange_seat]

theorem ScreensDerived.emit {s : State} (derived : ScreensDerived s) (more : List Instr) : ScreensDerived (s.emit more) := derived

theorem PlatesDerived.emit {s : State} (derived : PlatesDerived s) (more : List Instr) : PlatesDerived (s.emit more) := derived

/-- The screen change that the handling of an event from `s` begins, with the settings and the Screen Router it made. -/
def State.screenHandled (s : State) (l : List Instr) (st : Settings) (v : Scr) : State := { s with settings := st, scr := v, flight := l }

/-- An event that makes the Screen Router `v` under the settings `st`, sends its results and then `more` (R109). -/
theorem screenBecomes_change {cause : ShareCause} {plates : Bool} {s t : State} {l : List Instr} {st : Settings} {v : Scr} {more : List Instr}
    (taken : l = s.flight ∨ ∃ c, l = s.flight.erase c) (told : v.emptyTold = s.scr.emptyTold) (follows : ∀ i ∈ more, FollowsScreens i)
    (made : t = (State.screenChange cause plates s (s.screenHandled l st v)).emit more) :
    ScreensDerived t ∧ ScreenBecomes cause s t st v := by
  have settled := screenChange_settled cause plates s (s.screenHandled l st v)
  have tells := screenChange_told cause plates s (s.screenHandled l st v) t more taken told made follows
  have derived := (screenChange_derived cause plates s (s.screenHandled l st v)).emit more
  subst made
  refine ⟨derived, ?_, ?_, settled, tells⟩
  · rw [screenChange_eq]
    rfl
  · rw [State.emit_settings, screenChange_settings]
    rfl

/-- Of the state before an event, a screen change reads the Screen Router alone. -/
theorem screenChange_congr {s0 s0' : State} (s1 : State) (screens : s0.scr = s0'.scr) (cause : ShareCause) (plates : Bool) :
    State.screenChange cause plates s0 s1 = State.screenChange cause plates s0' s1 := by
  unfold State.screenChange
  rw [screens]

/-- An event in flight whose handling makes the Screen Router `v`, and what its screen change leaves (R94, R109). -/
theorem screenEdit_becomes {cause : ShareCause} {plates : Bool} {s : State} {c : Instr} {edit : Scr → Scr} {v : Scr} (made : edit s.scr = v)
    (told : v.emptyTold = s.scr.emptyTold) :
    ScreensDerived ((s.taking c).screenEdit cause plates edit) ∧ ScreenBecomes cause s ((s.taking c).screenEdit cause plates edit) s.settings v := by
  refine screenBecomes_change (more := []) (plates := plates) (.inr ⟨c, rfl⟩) told (by simp) ?_
  rw [emit_nil, State.screenEdit, screenChange_congr _ (rfl : (s.taking c).scr = s.scr), State.taking_scr, made]
  rfl

/-- The same of an event that no report brings, a timer's end. -/
theorem screenEdit_raised {cause : ShareCause} {plates : Bool} {s : State} {edit : Scr → Scr} {v : Scr} (made : edit s.scr = v)
    (told : v.emptyTold = s.scr.emptyTold) :
    ScreensDerived (s.screenEdit cause plates edit) ∧ ScreenBecomes cause s (s.screenEdit cause plates edit) s.settings v := by
  refine screenBecomes_change (more := []) (plates := plates) (.inl rfl) told (by simp) ?_
  rw [emit_nil, State.screenEdit, made]
  rfl

theorem screenEdit_plates (cause : ShareCause) (s : State) (edit : Scr → Scr) : PlatesDerived (s.screenEdit cause true edit) :=
  screenChange_plates cause _ _

/-! ## Seats that leave (R97, R101, R103, R106, R150) -/

theorem drop_eq (gone : ShareEntry → Bool) (v : Scr) : v.drop gone = { v with shares := v.shares.filter fun e => !gone e } := rfl

theorem drop_seat (x : Seat) (v : Scr) : (v.drop fun e => e.seat = x) = { v with shares := v.shares.filter fun e => e.seat ≠ x } := by
  simp [drop_eq]

theorem drop_point (p : Point) (v : Scr) : (v.drop fun e => e.point = p) = { v with shares := v.shares.filter fun e => e.point ≠ p } := by
  simp [drop_eq]

theorem takePresence_unbound {st : Settings} {x : Seat} (unbound : pointOf st x = none) (v : Scr) : v.takePresence st x .offline = { v with
    seats := v.seats.upd x { v.seats.get x with online := false, signal := false }
    shares := v.shares.filter fun e => e.seat ≠ x } := by
  unfold Scr.takePresence
  rw [if_neg (by decide)]
  dsimp only
  rw [unbound, drop_seat]
  rfl

theorem takePresence_bound {st : Settings} {x : Seat} {p : Point} (bound : pointOf st x = some p) (v : Scr) : v.takePresence st x .offline = { v with
    seats := v.seats.upd x { v.seats.get x with online := false, signal := false }
    points := v.points.upd p { signal := false, loss := none }
    shares := v.shares.filter fun e => e.seat ≠ x && !(e.point = p && e.state ≠ .waiting) } := by
  unfold Scr.takePresence
  rw [if_neg (by decide)]
  dsimp only
  rw [bound, drop_seat]
  simp only [Scr.loseSignal, drop_eq, Scr.putPoint, Scr.putSeat, List.filter_filter]

/-- The Screen Router of an activation or an ending, before its screen change (R103, R106, R150). -/
def State.activatedScr (s : State) (isEnding : Bool) (a : Agenda) : Scr :=
  { s.scr with
    shares := [], agenda := a, organiserName := s.organiserOf a, page := pageOf a (s.organiserOf a)
    endingMark := !isEnding && s.scr.endingMark }

theorem exec_activationAtScr (isEnding : Bool) (a : Agenda) (s : State) : exec (.activationAtScr isEnding a) s =
    .next (State.screenChange .report (isEnding && s.scr.endingMark) s
      (s.screenHandled (s.flight.erase (.activationAtScr isEnding a)) s.settings (s.activatedScr isEnding a))) :=
  next_congr (screenChange_congr _ rfl .report _)

/-- Settles O33. -/
theorem seatsLeaveTheScreens : Obligations.SeatsLeaveTheScreens := by
  intro x seats isEnding a s
  refine ⟨⟨_, rfl, screenEdit_becomes (if_pos rfl) rfl⟩, fun unbound => ⟨_, rfl, screenEdit_becomes (takePresence_unbound unbound s.scr) rfl⟩,
    fun p bound => ⟨_, rfl, screenEdit_becomes (takePresence_bound bound s.scr) rfl⟩, ⟨_, rfl, screenEdit_becomes (drop_seat ..) rfl⟩,
    ⟨_, rfl, screenEdit_becomes rfl rfl⟩, ⟨_, rfl, screenEdit_becomes rfl rfl⟩, ?_⟩
  obtain ⟨derived, becomes⟩ := screenBecomes_change (cause := .report) (plates := isEnding && s.scr.endingMark) (s := s)
    (l := s.flight.erase (.activationAtScr isEnding a)) (st := s.settings) (v := s.activatedScr isEnding a) (more := []) (.inr ⟨_, rfl⟩) rfl (by simp) rfl
  rw [emit_nil] at derived becomes
  have page := pageSound_screenChange .report (isEnding && s.scr.endingMark) s
    (s1 := s.screenHandled (s.flight.erase (.activationAtScr isEnding a)) s.settings (s.activatedScr isEnding a)) (pageSound_pageOf rfl)
  obtain ⟨frame, settings, settled, told⟩ := becomes
  have shares := settled.list (by simp [State.activatedScr])
  refine ⟨_, exec_activationAtScr isEnding a s, derived, ?_, page, frame, settings, ?_, told⟩
  · rw [shares]
    rfl
  · rw [settled.page]
    exact settled

/-! ## Floor, ending and agenda reports (R101, R102, R106 to R109) -/

/-- The Screen Router with the floor of a report, before the share list follows (R93, R101). -/
def Scr.withFloor (f : FloorView) (v : Scr) : Scr :=
  { v with
    speakers := f.speakers, queue := f.queue, lead := f.lead
    seats := Tab.gen fun x => { v.seats.get x with role := f.roles.get x, participant := f.participants.get x, enabled := f.enabled.get x } }

theorem takeView_eq (st : Settings) (f : FloorView) (v : Scr) : v.takeView st f =
    { (v.withFloor f).takeFloor st with shares := ((v.withFloor f).takeFloor st).shares.filter fun e => f.enabled.get e.seat } := by
  have drops : v.takeView st f = ((v.withFloor f).takeFloor st).drop fun e => !f.enabled.get e.seat := rfl
  rw [drops, drop_eq]
  simp only [Bool.not_not]

theorem exec_floorChangeAtScr (f : FloorView) (s : State) : exec (.floorChangeAtScr f) s =
    .next ((s.taking (.floorChangeAtScr f)).screenEdit .report true (Scr.takeView s.settings f)) := rfl

theorem takeFloor_still {st : Settings} (policy : st.presenter ≠ .floor) (v : Scr) : v.takeFloor st = v := by
  unfold Scr.takeFloor
  split
  · rename_i floor
    exact absurd floor policy
  · rfl

theorem takeFloor_graced {st : Settings} (policy : st.presenter = .floor) (v : Scr) :
    v.takeFloor st = { v with shares := v.shares.filterMap (v.graced st.floorGrace) } := by
  unfold Scr.takeFloor
  rw [policy] <;> rfl

/-- An entry under FLOOR whose seat speaks, or not, with a floor grace (R101, R102). -/
def ShareEntry.gracedBy (grace : Nat) (speaks : Bool) (e : ShareEntry) : ShareEntry :=
  match e.state, speaks with
  | .shown k, false => { e with state := .grace k (grace * 1000) }
  | .grace k _, true => { e with state := .shown k }
  | _, _ => e

theorem graced_running {grace : Nat} (runs : grace ≠ 0) (v : Scr) (e : ShareEntry) : v.graced grace e = some (e.gracedBy grace (v.hears e.seat)) := by
  rcases e with ⟨p, x, state, yes⟩
  unfold Scr.graced ShareEntry.gracedBy
  cases state <;> cases v.hears x <;> simp [runs]

/-- An entry that a floor change keeps where there is no floor grace (R102). -/
def ShareEntry.keptBy (speaks : Bool) (e : ShareEntry) : Bool :=
  match e.state with
  | .shown _ => speaks
  | _ => true

/-- An entry in GRACE whose seat speaks again (R102). -/
def ShareEntry.shownAgain (speaks : Bool) (e : ShareEntry) : ShareEntry :=
  match e.state, speaks with
  | .grace k _, true => { e with state := .shown k }
  | _, _ => e

theorem graced_none (v : Scr) (e : ShareEntry) :
    v.graced 0 e = if e.keptBy (v.hears e.seat) then some (e.shownAgain (v.hears e.seat)) else none := by
  rcases e with ⟨p, x, state, yes⟩
  unfold Scr.graced ShareEntry.keptBy ShareEntry.shownAgain
  cases state <;> cases v.hears x <;> simp

theorem filterMap_ite {α β : Type} (p : α → Bool) (g : α → β) (l : List α) :
    (l.filterMap fun a => if p a then some (g a) else none) = (l.filter p).map g := by
  induction l with
  | nil => rfl
  | cons a l ih => cases kept : p a <;> simp [kept, ih]

theorem takeFloor_runningGrace {st : Settings} (policy : st.presenter = .floor) (runs : st.floorGrace ≠ 0) (v : Scr) :
    v.takeFloor st = { v with shares := v.shares.map fun e => e.gracedBy st.floorGrace (v.hears e.seat) } := by
  rw [takeFloor_graced policy]
  simp only [funext (graced_running runs v), List.filterMap_eq_map']

theorem takeFloor_noGrace {st : Settings} (policy : st.presenter = .floor) (no : st.floorGrace = 0) (v : Scr) :
    v.takeFloor st = { v with shares := (v.shares.filter fun e => e.keptBy (v.hears e.seat)).map fun e => e.shownAgain (v.hears e.seat) } := by
  rw [takeFloor_graced policy, no]
  simp only [funext (graced_none v), filterMap_ite]

theorem takeRemaining_eq (left : List (Seat × Option Nat)) (v : Scr) : v.takeRemaining left = { v with speakers := v.speakers.map fun e =>
    { e with remaining := ((left.find? fun p => p.1 = e.seat).map (·.2)).getD e.remaining } } := by
  unfold Scr.takeRemaining
  congr 1
  refine List.map_congr_left fun e _ => ?_
  cases left.find? (fun p => p.1 = e.seat) <;> rfl

/-- The Screen Router with an agenda (R106). -/
def State.agendaScr (s : State) (a : Agenda) : Scr :=
  { s.scr with agenda := a, organiserName := s.organiserOf a, page := pageOf a (s.organiserOf a) }

theorem exec_agendaReport (a : Agenda) (s : State) : exec (.agendaReport a) s =
    .next (State.screenChange .report false s (s.screenHandled (s.flight.erase (.agendaReport a)) s.settings (s.agendaScr a))) :=
  next_congr (screenChange_congr _ rfl .report false)

/-- A screen change that brings an agenda leaves its page (R106). -/
theorem agenda_becomes {plates : Bool} {s : State} {c : Instr} (a : Agenda) :
    let t := State.screenChange .report plates s (s.screenHandled (s.flight.erase c) s.settings (s.agendaScr a))
    PageSound t.scr ∧ ScreenBecomes .report s t s.settings { s.scr with agenda := a, organiserName := s.organiserOf a, page := t.scr.page } := by
  obtain ⟨-, becomes⟩ := screenBecomes_change (cause := .report) (plates := plates) (s := s) (l := s.flight.erase c) (st := s.settings)
    (v := s.agendaScr a) (more := []) (.inr ⟨c, rfl⟩) rfl (by simp) rfl
  rw [emit_nil] at becomes
  obtain ⟨frame, settings, settled, told⟩ := becomes
  refine ⟨pageSound_screenChange .report plates s (pageSound_pageOf rfl), frame, settings, ?_, told⟩
  rw [settled.page]
  exact settled

theorem exec_participantEditReport (i : PIdx) (s : State) : exec (.participantEditReport i) s =
    .next (State.screenChange .report true s (s.screenHandled (s.flight.erase (.participantEditReport i)) s.settings
      (if s.scr.agenda.current.bind (·.organiser) = some i then s.agendaScr s.scr.agenda else s.scr))) := by
  refine next_congr ((screenChange_congr _ rfl .report true).trans (congrArg (State.screenChange .report true s) ?_))
  by_cases organised : s.scr.agenda.current.bind (·.organiser) = some i
  · exact (if_pos organised).trans (by rw [if_pos organised]; rfl)
  · exact (if_neg organised).trans (by rw [if_neg organised]; rfl)

/-! ## Every result of a screen change once (R109) -/

theorem plateChanges_nodup (a b : Scr) : (plateChanges a b).Nodup := by
  refine List.nodup_flatMap.mpr ⟨fun x _ => nodup_ite_single .., allSeats_nodup.imp fun other i here there => other ?_⟩
  simp only [mem_ite_nil, List.mem_singleton] at here there
  exact Instr.nameplateChange.inj (here.2.symm.trans there.2)

theorem screenResults_nodup (cause : ShareCause) (a b : Scr) : (screenResults cause a b).Nodup := by
  have plates : ∀ i ∈ plateChanges a b, ∃ x, i = .nameplateChange x := fun i mem => by
    simp only [plateChanges, List.mem_flatMap, mem_ite_nil, List.mem_singleton] at mem
    obtain ⟨x, -, -, rfl⟩ := mem
    exact ⟨x, rfl⟩
  have empty : ∀ i ∈ shareEmptyResult b, ∃ e, i = .shareListEmptyReport e := fun i mem => by
    simp only [shareEmptyResult, mem_ite_nil, List.mem_singleton] at mem
    exact ⟨_, mem.2⟩
  have notice : ∀ i ∈ (if shareNoticeDue a b then [Instr.notice .share (sharePayload cause b)] else []), ∃ p, i = .notice .share p := fun i mem => by
    simp only [mem_ite_nil, List.mem_singleton] at mem
    exact ⟨_, mem.2⟩
  refine ((plateChanges_nodup a b).append (nodup_ite_single ..) fun i front back => ?_).append (nodup_ite_single ..) fun i front back => ?_
  · obtain ⟨x, rfl⟩ := plates i front
    obtain ⟨e, same⟩ := empty _ back
    cases same
  · obtain ⟨p, rfl⟩ := notice i back
    obtain plate | said := List.mem_append.mp front
    · obtain ⟨x, same⟩ := plates _ plate
      cases same
    · obtain ⟨e, same⟩ := empty _ said
      cases same

/-- Settles O34. -/
theorem reportsAtTheScreens : Obligations.ReportsAtTheScreens := by
  intro f left mark a i s taken
  refine ⟨fun policy => ⟨_, exec_floorChangeAtScr f s, screenEdit_plates _ _ _, screenEdit_becomes ?_ rfl⟩, fun policy runs => ⟨_, exec_floorChangeAtScr f s, screenEdit_plates _ _ _, screenEdit_becomes ?_ rfl⟩,
    fun policy no => ⟨_, exec_floorChangeAtScr f s, screenEdit_plates _ _ _, screenEdit_becomes ?_ rfl⟩,
    ⟨_, rfl, screenEdit_plates _ _ _, (screenEdit_becomes (takeRemaining_eq left s.scr) rfl).2⟩, ⟨_, rfl, screenEdit_plates _ _ _, (screenEdit_becomes rfl rfl).2⟩,
    ⟨_, exec_agendaReport a s, agenda_becomes a⟩, ?participant, fun cause plates s0 s1 => ⟨?told, ?results⟩⟩
  · exact (takeView_eq s.settings f s.scr).trans (by rw [takeFloor_still policy]; rfl)
  · exact (takeView_eq s.settings f s.scr).trans (by rw [takeFloor_runningGrace policy runs]; rfl)
  · exact (takeView_eq s.settings f s.scr).trans (by rw [takeFloor_noGrace policy no]; rfl)
  case participant =>
    refine ⟨_, exec_participantEditReport i s, screenChange_plates _ _ _, ?_⟩
    by_cases organised : s.scr.agenda.current.bind (·.organiser) = some i
    · obtain ⟨page, becomes⟩ := agenda_becomes (plates := true) (s := s) (c := .participantEditReport i) s.scr.agenda
      have name : s.organiserOf s.scr.agenda = (s.participant (some i)).name := by rw [State.organiserOf, organised]
      rw [if_pos organised, if_pos organised]
      rw [name] at becomes
      exact ⟨fun _ => page, becomes⟩
    · rw [if_neg organised, if_neg organised]
      refine ⟨fun same => absurd same organised, ?_⟩
      have becomes := (screenBecomes_change (cause := .report) (plates := true) (s := s) (l := s.flight.erase (.participantEditReport i)) (st := s.settings)
        (v := s.scr) (more := []) (.inr ⟨_, rfl⟩) rfl (by simp) rfl).2
      rw [emit_nil] at becomes
      exact becomes
  case told =>
    rw [screenChange_scr]
    exact List.isEmpty_iff
  case results =>
    obtain ⟨out, sent, told⟩ := screenChange_sends cause plates s0 s1
    refine ⟨out, sent, ?_, told⟩
    rw [screenChange_eq] at sent
    have results : out = screenResults cause s0.scr (s1.screened plates).scr := (List.append_cancel_left sent).symm
    rw [results]
    exact screenResults_nodup ..

end Sys2Proof.Machine
end

section
/-! PROOF. SHARE keys, share signals and their timers, and the commands of the screens (R95 to R104, R110 to R114). -/

namespace Sys2Proof.Machine

open Sys2Proof

/-! ## SHARE keys, signals and timers (R95 to R98, R101, R102) -/

theorem toggleShare_withdraws {st : Settings} {x : Seat} {p : Point} (bound : pointOf st x = some p) {v : Scr} (entry : v.hasEntry p = true) :
    v.toggleShare st x = { v with shares := v.shares.filter fun e => e.point ≠ p } := by
  unfold Scr.toggleShare
  rw [bound]
  dsimp only
  rw [if_pos entry, drop_point]

theorem toggleShare_requests {st : Settings} {x : Seat} {p : Point} (bound : pointOf st x = some p) {v : Scr} (free : v.hasEntry p = false)
    (light : isDark v.power = false) : v.toggleShare st x = { v with shares := v.shares ++ [⟨p, x, .waiting, false⟩] } := by
  unfold Scr.toggleShare
  rw [bound]
  dsimp only
  rw [if_neg (by simp [free]), if_neg (by simp [light])]
  rfl

theorem takeSignal_bound {st : Settings} {x : Seat} {p : Point} (bound : pointOf st x = some p) (present : Bool) (v : Scr) :
    v.takeSignal st x present = { v with
      seats := v.seats.upd x { v.seats.get x with signal := present }
      points := v.points.upd p ((v.points.get p).signalled present) } := by
  unfold Scr.takeSignal
  rw [bound]
  rfl

theorem exec_lossTimerExpiry (p : Point) (s : State) : exec (.lossTimerExpiry p) s =
    .next (if s.pcu.audio = .running ∧ (s.scr.points.get p).loss.isSome then s.screenEdit .lossExpiry false (Scr.loseSignal p) else s) := rfl

theorem exec_floorGraceExpiry (p : Point) (s : State) : exec (.floorGraceExpiry p) s =
    .next (if s.pcu.audio = .running ∧ s.scr.shares.any (fun e => e.point = p && e.inGrace) then
      s.screenEdit .graceExpiry false (Scr.drop fun e => e.point = p && e.inGrace) else s) := rfl

theorem inGrace_of_state {e : ShareEntry} (grace : ∃ k n, e.state = .grace k n) : e.inGrace = true := by
  obtain ⟨k, n, state⟩ := grace
  unfold ShareEntry.inGrace
  rw [state]

/-- Settles O35. -/
theorem shareKeysSignalsAndTimers : Obligations.ShareKeysSignalsAndTimers := by
  intro x p s
  refine ⟨fun bound free light => ⟨_, rfl, screenEdit_becomes (toggleShare_requests bound free light) rfl⟩,
    fun bound entry => ⟨_, rfl, screenEdit_becomes (toggleShare_withdraws bound entry) rfl⟩,
    fun bound => ⟨_, rfl, screenEdit_becomes (takeSignal_bound bound true s.scr) rfl⟩, fun bound point => ⟨_, rfl, ?lost⟩,
    fun runs loss => ?expiry, fun idle => ?idle, fun runs grace => ?grace, fun idle => ?still⟩
  case lost =>
    have made : s.scr.takeSignal s.settings x false = { s.scr with
        seats := s.scr.seats.upd x { s.scr.seats.get x with signal := false }
        points := s.scr.points.upd p { signal := true, loss := some 2000 } } := by
      rw [takeSignal_bound bound, point]
      rfl
    exact (screenEdit_becomes made rfl).2
  case expiry =>
    rw [exec_lossTimerExpiry, if_pos ⟨runs, Option.isSome_iff_ne_none.mpr loss⟩]
    exact ⟨_, rfl, screenEdit_raised rfl rfl⟩
  case idle =>
    rw [exec_lossTimerExpiry, if_neg]
    rintro ⟨runs, loss⟩
    exact idle.elim (fun stopped => stopped runs) fun unset => Option.isSome_iff_ne_none.mp loss unset
  case grace =>
    obtain ⟨e, mem, point, state⟩ := grace
    have held : s.scr.shares.any (fun e => e.point = p && e.inGrace) = true :=
      List.any_eq_true.mpr ⟨e, mem, by simp [point, inGrace_of_state state]⟩
    rw [exec_floorGraceExpiry, if_pos ⟨runs, held⟩]
    exact ⟨_, rfl, screenEdit_raised rfl rfl⟩
  case still =>
    rw [exec_floorGraceExpiry, if_neg]
    rintro ⟨runs, grace⟩
    obtain ⟨e, mem, here⟩ := List.any_eq_true.mp grace
    rw [Bool.and_eq_true, decide_eq_true_eq] at here
    exact idle.elim (fun stopped => stopped runs) fun out => Bool.false_ne_true ((out e mem here.1).symm.trans here.2)

/-! ## Commands that set a screen setting (R99, R104, R110 to R112) -/

theorem screenSet_same {s : State} {r : CmdRef} {set : Settings → Settings} {edit : Settings → Scr → Scr} (same : set s.settings = s.settings) :
    s.screenSet r set edit = s.reply r .ok := if_pos same

/-- A new value of a screen setting, what it makes of the list, and the command's result (R110). -/
theorem screenSet_becomes {s : State} {c : Instr} {r : CmdRef} {set : Settings → Settings} {edit : Settings → Scr → Scr} {st : Settings} {v : Scr}
    (fresh : set s.settings ≠ s.settings) (sets : set s.settings = st) (made : edit st s.scr = v) (told : v.emptyTold = s.scr.emptyTold) :
    ScreensDerived ((s.taking c).screenSet r set edit) ∧ ScreenBecomes .command s ((s.taking c).screenSet r set edit) st v ∧
      SentSome c s ((s.taking c).screenSet r set edit) (EndsWith (.blockResult r .ok [])) := by
  have run : (s.taking c).screenSet r set edit =
      (State.screenChange .command false s (s.screenHandled (s.flight.erase c) st v)).emit [.blockResult r .ok []] := by
    have handled : ({ s.taking c with settings := set (s.taking c).settings, scr := edit (set (s.taking c).settings) (s.taking c).scr } : State) =
        s.screenHandled (s.flight.erase c) st v := by
      rw [← made, ← sets]
      rfl
    refine (if_neg fresh).trans ?_
    rw [handled, screenChange_congr (s0' := s) _ rfl]
    rfl
  rw [run]
  obtain ⟨derived, becomes⟩ := screenBecomes_change (cause := .command) (plates := false) (s := s) (l := s.flight.erase c) (st := st) (v := v)
    (more := [.blockResult r .ok []]) (.inr ⟨c, rfl⟩) told (by simp [FollowsScreens]) rfl
  refine ⟨derived, becomes, endsWith_emit ?_ _⟩
  obtain ⟨out, sent⟩ := screenChange_flight .command false s (s.screenHandled (s.flight.erase c) st v)
  exact ⟨out, sent.symm⟩

section
variable {s : State} (full : s.pcu.power = some .full) (r : CmdRef)
include full

theorem exec_setLayout (c : Screen) (l : Layout) : exec (.setLayout r (some c) (some l)) s =
    .next ((s.taking (.setLayout r (some c) (some l))).screenSet r (fun st => { st with layout := st.layout.upd c l }) Scr.displaced) :=
  next_congr (whenFull_full r _ full)

theorem exec_setSlot (k : SlotId) (src : Source) : exec (.setSlot r (some k) (some src)) s =
    .next ((s.taking (.setSlot r (some k) (some src))).screenSet r (fun st => { st with source := st.source.upd k src }) Scr.displaced) :=
  next_congr (whenFull_full r _ full)

theorem exec_setCaption (b : Bool) : exec (.setCaption r (some b)) s =
    .next ((s.taking (.setCaption r (some b))).screenSet r (fun st => { st with caption := b }) fun _ v => v) :=
  next_congr (whenFull_full r _ full)

theorem exec_setPresenterPolicy (p : PresenterPolicy) : exec (.setPresenterPolicy r (some p)) s =
    .next ((s.taking (.setPresenterPolicy r (some p))).screenSet r (fun st => { st with presenter := p })
      fun _ v => { v with shares := v.shares.map (v.rejudged p) }) :=
  next_congr (whenFull_full r _ full)

end

theorem PerScreen.get_upd_self {α : Type} (t : PerScreen α) (c : Screen) (v : α) : (t.upd c v).get c = v := by
  cases c <;> rfl

theorem PerSlot.get_upd_self {α : Type} (t : PerSlot α) (k : SlotId) (v : α) : (t.upd k v).get k = v := by
  cases k <;> rfl

theorem PerSlot.get_upd_other {α : Type} (t : PerSlot α) {j k : SlotId} (other : j ≠ k) (v : α) : (t.upd k v).get j = t.get j := by
  cases k <;> cases j <;> simp_all [PerSlot.upd, PerSlot.get]

/-- Which slots in force a new layout of a screen leaves (R104, R111). -/
theorem slotExists_setLayout {st : Settings} {k : SlotId} (existed : slotExists st k = true) (c : Screen) (l : Layout) :
    slotExists { st with layout := st.layout.upd c l } k = !(l = .full && k = rightSlot c) := by
  cases l <;> cases c <;> cases k <;> simp [slotExists, SlotId.isRight, SlotId.screen, rightSlot, PerScreen.upd, PerScreen.get] at existed ⊢ <;> exact existed

theorem displaced_layout {s : State} (inForce : SlotsInForce s) (c : Screen) (l : Layout) :
    s.scr.displaced { s.settings with layout := s.settings.layout.upd c l } = { s.scr with
      shares := s.scr.shares.map fun e => if l = .full ∧ e.state.slot = some (rightSlot c) then { e with state := .waiting } else e } := by
  unfold Scr.displaced
  congr 1
  refine List.map_congr_left fun e mem => ?_
  cases slot : e.state.slot with
  | none => simp
  | some k =>
    obtain ⟨existed, auto⟩ := inForce e mem k slot
    dsimp only
    rw [slotExists_setLayout existed, auto]
    by_cases goes : l = .full ∧ k = rightSlot c
    · obtain ⟨rfl, rfl⟩ := goes
      simp
    · rw [if_pos, if_neg (by simpa using goes)]
      simp only [decide_true, Bool.and_true, Bool.not_eq_true', Bool.and_eq_false_iff, decide_eq_false_iff_not]
      exact not_and_or.mp goes

theorem displaced_source {s : State} (inForce : SlotsInForce s) {k : SlotId} {src : Source} (fresh : src ≠ s.settings.source.get k) :
    s.scr.displaced { s.settings with source := s.settings.source.upd k src } = { s.scr with
      shares := s.scr.shares.map fun e => if e.state.slot = some k then { e with state := .waiting } else e } := by
  unfold Scr.displaced
  congr 1
  refine List.map_congr_left fun e mem => ?_
  cases slot : e.state.slot with
  | none => simp
  | some j =>
    obtain ⟨existed, auto⟩ := inForce e mem j slot
    have exists_ : slotExists { s.settings with source := s.settings.source.upd k src } j = true := existed
    dsimp only
    rw [exists_]
    by_cases here : j = k
    · subst here
      rw [PerSlot.get_upd_self, if_neg (by simpa [auto] using fresh), if_pos rfl]
    · rw [PerSlot.get_upd_other _ here, auto, if_pos (by simp), if_neg (by simpa using here)]

/-- Every entry judged under a presenter policy (R99, R104). -/
theorem rejudged_eq (p : PresenterPolicy) (v : Scr) (e : ShareEntry) : v.rejudged p e =
    if e.state = .waiting then e
    else if v.allows p e then { e with state := match e.state with
      | .grace j _ => .shown j
      | u => u }
    else { e with state := .waiting } := by
  rcases e with ⟨q, x, state, yes⟩
  unfold Scr.rejudged
  cases state with
  | waiting => rfl
  | shown k => by_cases allowed : v.allows p ⟨q, x, .shown k, yes⟩ = true <;> simp [allowed]
  | grace k n => by_cases allowed : v.allows p ⟨q, x, .grace k n, yes⟩ = true <;> simp [allowed]

/-- Settles O36. -/
theorem screenSettings : Obligations.ScreenSettings := by
  intro r c l k src b p s full
  refine ⟨fun inForce fresh => ⟨_, exec_setLayout full r c l, screenSet_becomes (fun same => fresh ?_) rfl (displaced_layout inForce c l) rfl⟩,
    fun inForce fresh => ⟨_, exec_setSlot full r k src, screenSet_becomes (fun same => fresh ?_) rfl (displaced_source inForce fresh) rfl⟩,
    (exec_setLayout full r ..).trans (next_congr (screenSet_same ?_)), (exec_setSlot full r ..).trans (next_congr (screenSet_same ?_)),
    (exec_setCaption full r _).trans (next_congr (screenSet_same rfl)), (exec_setPresenterPolicy full r _).trans (next_congr (screenSet_same rfl)),
    fun fresh => ⟨_, exec_setCaption full r b, screenSet_becomes (fun same => fresh (congrArg Settings.caption same :)) rfl rfl rfl⟩,
    fun fresh => ⟨_, exec_setPresenterPolicy full r p, screenSet_becomes (fun same => fresh (congrArg Settings.presenter same :)) rfl ?_ rfl⟩⟩
  · have layout := congrArg (fun st : Settings => st.layout.get c) same
    exact (PerScreen.get_upd_self ..).symm.trans layout
  · have source := congrArg (fun st : Settings => st.source.get k) same
    exact (PerSlot.get_upd_self ..).symm.trans source
  · have kept : s.settings.layout.upd c (s.settings.layout.get c) = s.settings.layout := by cases c <;> rfl
    exact congrArg (fun y => { s.settings with layout := y }) kept
  · have kept : s.settings.source.upd k (s.settings.source.get k) = s.settings.source := by cases k <;> rfl
    exact congrArg (fun y => { s.settings with source := y }) kept
  · simp only [funext (rejudged_eq p s.scr), allows_iff] <;> rfl

/-! ## The commands over share points (R101, R113, R114) -/

theorem screenOk_becomes {s : State} {c : Instr} {r : CmdRef} {edit : Scr → Scr} {v : Scr} {payload : Scr → List Byte} (made : edit s.scr = v)
    (told : v.emptyTold = s.scr.emptyTold) :
    let u := (s.taking c).screenEdit .command false edit
    let t := u.reply r .ok (payload u.scr)
    ScreensDerived t ∧ ScreenBecomes .command s t s.settings v ∧ SentSome c s t (EndsWith (.blockResult r .ok (payload t.scr))) := by
  obtain ⟨derived, becomes⟩ := screenBecomes_change (cause := .command) (plates := false) (s := s) (l := s.flight.erase c) (st := s.settings) (v := v)
    (more := [.blockResult r .ok (payload ((s.taking c).screenEdit .command false edit).scr)]) (.inr ⟨c, rfl⟩) told (by simp [FollowsScreens]) rfl
  have run : (s.taking c).screenEdit .command false edit = State.screenChange .command false s (s.screenHandled (s.flight.erase c) s.settings v) := by
    rw [State.screenEdit, screenChange_congr _ (rfl : (s.taking c).scr = s.scr), State.taking_scr, made]
    rfl
  intro u t
  have eq : t = (State.screenChange .command false s (s.screenHandled (s.flight.erase c) s.settings v)).emit [.blockResult r .ok (payload u.scr)] := by
    rw [← run]
    rfl
  have sent : SentSome c s t (EndsWith (.blockResult r .ok (payload t.scr))) := by
    refine endsWith_emit (u := u) ?_ _
    obtain ⟨out, sent⟩ := screenChange_flight .command false (s.taking c) { s.taking c with scr := edit (s.taking c).scr }
    exact ⟨out, sent.symm⟩
  rw [← eq] at derived becomes
  exact ⟨derived, becomes, sent⟩

theorem exec_shareStart {s : State} (full : s.pcu.power = some .full) (r : CmdRef) (p : Point) : exec (.shareStart r (some p)) s =
    .next ((s.taking (.shareStart r (some p))).startShare r p) := next_congr (whenFull_full r _ full)

theorem startShare_requests {s : State} {r : CmdRef} {p : Point} {x : Seat} (bound : s.settings.binding.get p = some x)
    (enabled : (s.scr.seats.get x).enabled = true) (online : (s.scr.seats.get x).online = true) (free : s.scr.hasEntry p = false) :
    s.startShare r p = (s.screenEdit .command false (Scr.request p x)).reply r .ok ((s.screenEdit .command false (Scr.request p x)).scr.placedField p) := by
  unfold State.startShare
  rw [bound]
  dsimp only
  rw [if_neg (by simp [enabled, online]), if_neg (by simp [free])]

theorem exec_shareStop {s : State} (full : s.pcu.power = some .full) (r : CmdRef) (p : Point) : exec (.shareStop r (some p)) s = .next (
    if s.scr.hasEntry p then ((s.taking (.shareStop r (some p))).screenEdit .command false (Scr.drop fun e => e.point = p)).reply r .ok
    else Answered (.shareStop r (some p)) r .notFound [] s) :=
  next_congr (whenFull_full (s := s.taking (.shareStop r (some p))) r _ full)

theorem exec_approveShare {s : State} (full : s.pcu.power = some .full) (r : CmdRef) (p : Point) (b : Bool) :
    exec (.approveShare r (some p) (some b)) s = .next (
      if s.scr.hasEntry p then
        ((s.taking (.approveShare r (some p) (some b))).screenEdit .command false (Scr.approve s.settings.presenter p b)).reply r .ok
      else Answered (.approveShare r (some p) (some b)) r .notFound [] s) :=
  next_congr (whenFull_full (s := s.taking (.approveShare r (some p) (some b))) r _ full)

theorem approve_yes (policy : PresenterPolicy) (p : Point) (v : Scr) : v.approve policy p true = { v with
    shares := v.shares.map fun e => if e.point = p then { e with approved := true } else e } := by
  unfold Scr.approve
  simp

theorem approve_no (policy : PresenterPolicy) (p : Point) (v : Scr) : v.approve policy p false = { v with
    shares := v.shares.map fun e => if e.point = p then
        { e with
          approved := false
          state := match policy, e.state with
            | .chair, .shown _ => .waiting
            | _, u => u }
      else e } := by
  unfold Scr.approve
  congr 1
  refine List.map_congr_left fun e _ => ?_
  split
  · cases policy <;> cases e.state <;> rfl
  · rfl

theorem bindPoint_binds {s : State} {r : CmdRef} {p : Point} {seat : Option Seat} (fresh : s.settings.binding.get p ≠ seat)
    (free : seat.isSome = true → ∀ q, q ≠ p → s.settings.binding.get q ≠ seat) :
    s.bindPoint r p seat = s.screenSet r (fun st => { st with binding := st.binding.upd p seat }) fun _ => Scr.rebind p seat := by
  unfold State.bindPoint
  rw [if_neg fresh, if_neg]
  intro taken
  simp only [Bool.and_eq_true, List.any_eq_true, decide_eq_true_eq] at taken
  obtain ⟨named, q, -, other, bound⟩ := taken
  exact free named q other bound

theorem rebind_eq (p : Point) (seat : Option Seat) (v : Scr) : v.rebind p seat = { v with
    shares := v.shares.filter fun e => e.point ≠ p
    points := v.points.upd p { signal := (seat.map fun x => (v.seats.get x).signal).getD false, loss := none } } := by
  unfold Scr.rebind
  rw [drop_point]
  cases seat <;> rfl

theorem binding_fresh {st : Settings} {p : Point} {seat : Option Seat} (fresh : st.binding.get p ≠ seat) :
    { st with binding := st.binding.upd p seat } ≠ st := fun same => by
  have binding := congrArg (fun st : Settings => st.binding.get p) same
  exact fresh (((Tab.get_upd_self ..).symm.trans binding).symm)

/-- Settles O37. -/
theorem sharePointCommands : Obligations.SharePointCommands := by
  intro r p x s
  refine ⟨fun full bound enabled online free => ⟨_, (exec_shareStart full r p).trans (next_congr (startShare_requests (s := s.taking _) bound enabled online free)),
      screenOk_becomes (payload := fun v => v.placedField p) rfl rfl⟩,
    fun full entry => ⟨_, (exec_shareStop full r p).trans (next_congr (if_pos entry)), screenOk_becomes (payload := fun _ => []) (drop_point ..) rfl⟩,
    fun full entry => ⟨_, (exec_approveShare full r p true).trans (next_congr (if_pos entry)), screenOk_becomes (payload := fun _ => []) (approve_yes ..) rfl⟩,
    fun full entry => ⟨_, (exec_approveShare full r p false).trans (next_congr (if_pos entry)), screenOk_becomes (payload := fun _ => []) ?no rfl⟩,
    fun full free => ⟨(exec_shareStop full r p).trans (next_congr (if_neg (by simp [free]))),
      fun b => (exec_approveShare full r p b).trans (next_congr (if_neg (by simp [free])))⟩,
    fun bound => ⟨_, next_congr (bindPoint_binds (s := s.taking (.bindSharePoint r (some p) .unbind)) bound nofun),
      screenSet_becomes (binding_fresh bound) rfl (rebind_eq p none s.scr) rfl⟩,
    fun unbound => next_congr (if_pos unbound),
    fun fresh free => ⟨_, next_congr (bindPoint_binds (s := s.taking (.bindSharePoint r (some p) (.to (some x)))) fresh fun _ q _ => free q),
      screenSet_becomes (binding_fresh fresh) rfl (rebind_eq p (some x) s.scr) rfl⟩,
    fun q other fresh bound => next_congr ((if_neg fresh).trans (if_pos ?_))⟩
  case no =>
    exact (approve_no ..).trans rfl
  · simp only [Bool.and_eq_true, List.any_eq_true, decide_eq_true_eq]
    exact ⟨rfl, q, List.mem_finRange q, other, bound⟩

end Sys2Proof.Machine
end

section
/-! PROOF. What each block makes of the power state (R8, R41, R58, R73, R82, R94, R103, R107, R162, R171). -/

namespace Sys2Proof.Machine

open Sys2Proof

theorem exec_powerAtTbc (p : Power) (phase : Option Phase) (s : State) : exec (.powerStateReport .tbc p phase) s =
    .next { Taken (.powerStateReport .tbc p phase) s with tbc := s.tbc.takePower p phase } := rfl

theorem exec_powerAtFlc (p : Power) (phase : Option Phase) (s : State) : exec (.powerStateReport .flc p phase) s =
    .next ((s.taking (.powerStateReport .flc p phase)).floorEdit .report (Flc.takePower · p)) := rfl

theorem exec_powerAtMix (p : Power) (phase : Option Phase) (s : State) : exec (.powerStateReport .mix p phase) s =
    .next { Taken (.powerStateReport .mix p phase) s with mix := s.mix.takePower p phase } := rfl

theorem exec_powerAtVdt (p : Power) (phase : Option Phase) (s : State) : exec (.powerStateReport .vdt p phase) s =
    .next { Taken (.powerStateReport .vdt p phase) s with vdt := s.vdt.takePower p } := rfl

theorem exec_powerAtScr (p : Power) (phase : Option Phase) (s : State) : exec (.powerStateReport .scr p phase) s =
    .next ((s.taking (.powerStateReport .scr p phase)).screenEdit .report true (Scr.takePower p)) := rfl

theorem exec_powerAtRln (p : Power) (phase : Option Phase) (s : State) : exec (.powerStateReport .rln p phase) s =
    .next { Taken (.powerStateReport .rln p phase) s with rln := s.rln.takePower p } := rfl

theorem takePower_quiet_seat (f : Flc) (x : Seat) :
    (f.takePower .quiet).seats.get x = { f.seats.get x with selfMuted := false, flash := none } := Tab.get_gen _ x

theorem takePower_sleep_seat (f : Flc) (x : Seat) : (f.takePower .sleep).seats.get x = { f.seats.get x with online := false } := Tab.get_gen _ x

/-- With no share point listed, there is nobody to place (R100). -/
theorem settled_no_shares {st : Settings} {v w : Scr} (settled : ScreenSettled st v w) (empty : v.shares = []) : w.shares = [] := by
  have list := settled.list (by simp [empty])
  simp only [list, placedList, empty, List.map_nil]

/-- A seat that took part by voice falls silent when the room leaves FULL (R87). -/
theorem rejudged_lost (samples : Nat) (t : VdtSeat) : t.rejudged true false samples =
    { t with state := .quiet, env := 0, count := 0, hold := 0, whole := false } := rfl

theorem takePower_quiet_vdt (v : Vdt) (x : Seat) : (v.takePower .quiet).seats.get x =
    (v.seats.get x).rejudged ((v.seats.get x).eligible v.power) false v.samples := by
  have silent : ∀ t : VdtSeat, t.eligible (some .quiet) = false := fun t => by simp [VdtSeat.eligible]
  rw [← silent (v.seats.get x)]
  exact Tab.get_gen _ x

/-- Settles O49. -/
theorem blocksTakeThePowerState : Obligations.BlocksTakeThePowerState := by
  intro phase s
  refine ⟨⟨_, exec_powerAtTbc .sleep phase s, rfl, rfl, fun x => ?bus⟩, ⟨_, exec_powerAtTbc .waking phase s, rfl, rfl, rfl, rfl, rfl, rfl⟩, ?floorQuiet,
    ?floorSleep, ⟨_, exec_powerAtMix .sleep phase s, rfl, rfl, fun x => ?engineSleep⟩, ⟨_, exec_powerAtMix .quiet phase s, rfl, rfl, rfl, fun x => ?engineQuiet⟩,
    ⟨_, exec_powerAtVdt .quiet phase s, rfl, rfl, fun x eligible => ?voice⟩, ?screensQuiet, ?screensSleep,
    ⟨_, exec_powerAtRln .quiet phase s, rfl, rfl, fun l => ?linesQuiet⟩, ⟨_, exec_powerAtRln .full phase s, rfl, fun l => ?linesFull⟩⟩
  case bus =>
    have seat : (s.tbc.takePower .sleep phase).seats.get x = (s.tbc.seats.get x).unpowered := Tab.get_gen _ x
    rw [seat]
    exact ⟨rfl, rfl, rfl, rfl, rfl⟩
  case floorQuiet =>
    obtain ⟨frame, settings, settled, told⟩ := floorBecomes_only (cause := .report) (s := s) (c := .powerStateReport .flc .quiet phase)
      (edit := (Flc.takePower · .quiet)) rfl rfl
    obtain ⟨speakers, queue, seats⟩ := settled_of_no_queue settled rfl
    refine ⟨_, exec_powerAtFlc .quiet phase s, frame, told, settings, settled.power, speakers, queue, settled.overrides, fun x => ?_⟩
    rw [seats x, takePower_quiet_seat]
    exact ⟨rfl, rfl, rfl⟩
  case floorSleep =>
    obtain ⟨frame, settings, settled, told⟩ := floorBecomes_only (cause := .report) (s := s) (c := .powerStateReport .flc .sleep phase)
      (edit := (Flc.takePower · .sleep)) rfl rfl
    obtain ⟨speakers, queue, seats⟩ := settled_of_no_queue settled rfl
    refine ⟨_, exec_powerAtFlc .sleep phase s, frame, told, settings, settled.power, speakers, queue, settled.overrides, fun x => ?_⟩
    rw [seats x, takePower_sleep_seat]
    exact ⟨rfl, rfl, rfl⟩
  case engineSleep =>
    have seat : (s.mix.takePower .sleep phase).seats.get x = { s.mix.seats.get x with online := false, feed := none } := Tab.get_gen _ x
    rw [seat]
    exact ⟨rfl, rfl⟩
  case engineQuiet =>
    have seat : (s.mix.takePower .quiet phase).seats.get x = { s.mix.seats.get x with applied := .mute, mult := 0, feed := none } := Tab.get_gen _ x
    rw [seat]
    exact ⟨rfl, rfl, rfl, rfl⟩
  case voice =>
    rw [takePower_quiet_vdt, eligible, rejudged_lost]
    exact ⟨rfl, rfl, rfl, rfl⟩
  case screensQuiet =>
    obtain ⟨derived, frame, settings, settled, told⟩ := screenEdit_becomes (cause := .report) (plates := true) (s := s)
      (c := .powerStateReport .scr .quiet phase) (edit := Scr.takePower .quiet) rfl rfl
    exact ⟨_, exec_powerAtScr .quiet phase s, frame, told, settings, settled.power, settled_no_shares settled rfl, screenEdit_plates _ _ _, derived,
      settled.points⟩
  case screensSleep =>
    obtain ⟨-, frame, settings, settled, told⟩ := screenEdit_becomes (cause := .report) (plates := true) (s := s)
      (c := .powerStateReport .scr .sleep phase) (edit := Scr.takePower .sleep) rfl rfl
    refine ⟨_, exec_powerAtScr .sleep phase s, frame, told, settled_no_shares settled rfl, fun p => ?_⟩
    rw [settled.points]
    exact Tab.get_all _ p
  case linesQuiet =>
    exact Tab.get_gen _ l
  case linesFull =>
    exact Tab.get_gen _ l

end Sys2Proof.Machine
end

section
/-! PROOF. The start evaluation over a store that the scan found (R134, R156, R174): what it leaves of the bookings and of the write queue. -/

namespace Sys2Proof.Machine

open Sys2Proof

/-! ## What the start evaluation may change -/

/-- What the start evaluation may leave of the booking that the scan found in a slot: of a live one it moves the state, which may set the
actual end (R156). -/
structure Restated (found now : Option Booking) : Prop where
  free : found = none → now = none
  moved : ∀ k, found = some k → ∃ st e, now = some { k with state := st, actualEnd := e } ∧ (isLive k.state = false → st = k.state ∧ e = k.actualEnd)

theorem Restated.refl (found : Option Booking) : Restated found found :=
  ⟨id, fun k held => ⟨k.state, k.actualEnd, held, fun _ => ⟨rfl, rfl⟩⟩⟩

/-- The record of a live booking as the start evaluation has it. -/
def KnownLive (found : Tab (Option Booking) 32) (i : BSlot) (k : Booking) : Prop := Restated (found.get i) (some k) ∧ isLive k.state = true

/-- A transition of a live booking moves its state alone (R138). -/
theorem KnownLive.entered {found : Tab (Option Booking) 32} {i : BSlot} {k : Booking} (known : KnownLive found i k) (m : Msc) (new : BState) :
    Restated (found.get i) (some (m.entered new k)) := by
  obtain ⟨⟨free, moved⟩, live⟩ := known
  refine ⟨fun none_ => absurd (free none_) (by simp), fun k0 held => ?_⟩
  obtain ⟨st, e, now, spent⟩ := moved k0 held
  obtain rfl := Option.some.inj now
  refine ⟨new, (m.entered new { k0 with state := st, actualEnd := e }).actualEnd, rfl, fun gone => ?_⟩
  obtain ⟨state, -⟩ := spent gone
  exact absurd live (by simp [state, gone])

/-- What holds from the scan of the store to the end of the start evaluation: no MIC flag is set, no write runs, since the store is held,
the bookings are the found ones with their states moved, and the slots that the scan owed a write head the queue. -/
structure AtStart (found : Tab (Option Booking) 32) (owed : List StoreSlot) (s : State) : Prop where
  unflagged : ∀ x, (s.tbc.seats.get x).flag.mic = false
  idle : s.bks.writing = none
  held : s.bks.supplyHeld = true
  records : ∀ i, Restated (found.get i) (s.bks.bookings.get i)
  owed : owed <+: s.bks.queue

/-- With the store held and no write running, a change joins the tail of the queue unless its slot is there already (R128, R129). -/
theorem change_held {b : Bks} (idle : b.writing = none) (held : b.supplyHeld = true) (k : StoreSlot) :
    b.change k = { b with queue := if k ∈ b.queue then b.queue else b.queue ++ [k] } := by
  have persist : b.persist k = if k ∈ b.queue then .dirty else .clean := by
    unfold Bks.persist
    rw [idle]
  by_cases queued : k ∈ b.queue
  · have noted : b.noteChange k = b := by
      unfold Bks.noteChange
      rw [persist, if_pos queued]
    rw [Bks.change, noted, if_pos queued]
    exact startWrite_held held
  · have noted : b.noteChange k = { b with queue := b.queue ++ [k] } := by
      unfold Bks.noteChange
      rw [persist, if_neg queued]
    rw [Bks.change, noted, if_neg queued]
    exact startWrite_held held

theorem setBooking_held {b : Bks} (idle : b.writing = none) (held : b.supplyHeld = true) (i : BSlot) (v : Option Booking) :
    b.setBooking i v = { b with
      bookings := b.bookings.upd i v
      queue := if b.bookings.get i = v ∨ .booking i ∈ b.queue then b.queue else b.queue ++ [.booking i] } := by
  unfold Bks.setBooking
  by_cases same : b.bookings.get i = v
  · have kept : b.bookings.upd i v = b.bookings := Tab.ext_get _ _ fun j => by
      rw [Tab.get_upd]
      split
      · rename_i here
        rw [here, same]
      · rfl
    rw [if_pos same, if_pos (.inl same), kept]
  · have changed := change_held (b := { b with bookings := b.bookings.upd i v }) idle held (.booking i)
    rw [if_neg same, changed]
    simp only [same, false_or]

section
variable {found : Tab (Option Booking) 32} {owed : List StoreSlot} {s t : State}

theorem AtStart.same (h : AtStart found owed s) (bks : t.bks = s.bks) (tbc : t.tbc = s.tbc) : AtStart found owed t :=
  ⟨tbc ▸ h.unflagged, bks ▸ h.idle, bks ▸ h.held, bks ▸ h.records, bks ▸ h.owed⟩

theorem AtStart.ite {c : Prop} [Decidable c] (h : c → AtStart found owed s) (k : ¬c → AtStart found owed t) :
    AtStart found owed (if c then s else t) := by
  split
  · exact h ‹_›
  · exact k ‹_›

theorem AtStart.known (h : AtStart found owed s) {i : BSlot} {k : Booking} (held : s.bks.bookings.get i = some k) (live : isLive k.state = true) :
    KnownLive found i k := ⟨held ▸ h.records i, live⟩

theorem AtStart.emit (h : AtStart found owed s) (l : List Instr) : AtStart found owed (s.emit l) := h.same rfl rfl

theorem AtStart.remember (h : AtStart found owed s) (since grace : Option Nat) : AtStart found owed (s.remember since grace) := h.same rfl rfl

theorem AtStart.refreshAgenda (h : AtStart found owed s) : AtStart found owed s.refreshAgenda := .ite (fun _ => h) fun _ => h.same rfl rfl

theorem AtStart.agendaSent (h : AtStart found owed s) (a : Agenda) : AtStart found owed { s with msc := { s.msc with agendaSent := a } } :=
  h.same rfl rfl

theorem AtStart.activationEffects (h : AtStart found owed s) (k : Booking) : AtStart found owed (s.activationEffects k) := h.same rfl rfl

theorem AtStart.clearKeyFlags (h : AtStart found owed s) (p : Seat → Bool) (keys : List Key) : AtStart found owed (s.clearKeyFlags p keys) := by
  refine ⟨fun x => ?_, h.idle, h.held, h.records, h.owed⟩
  have flag := (clearFlags_get s.tbc p keys x).2 .mic
  have was : (s.tbc.seats.get x).flag.get .mic = false := h.unflagged x
  rw [was, Bool.false_and] at flag
  exact flag

theorem AtStart.endingEffects (h : AtStart found owed s) : AtStart found owed s.endingEffects :=
  (h.clearKeyFlags (fun _ => true) [.mic]).same rfl rfl

theorem AtStart.transition (h : AtStart found owed s) {i : BSlot} {k : Booking} (known : KnownLive found i k) (new : BState) :
    AtStart found owed (s.transition i k new id) := by
  have store : (s.transition i k new id).bks = s.bks.setBooking i (some (s.msc.entered new k)) := rfl
  rw [setBooking_held h.idle h.held] at store
  refine ⟨h.unflagged, ?_, ?_, fun j => ?_, ?_⟩
  · rw [store]
    exact h.idle
  · rw [store]
    exact h.held
  · rw [store]
    dsimp only
    rw [Tab.get_upd]
    split
    · rename_i here
      exact here ▸ known.entered s.msc new
    · exact h.records j
  · rw [store]
    dsimp only
    split
    · exact h.owed
    · exact h.owed.trans (List.prefix_append ..)

/-- Without a MIC flag nobody checks in by key (R143). -/
theorem AtStart.keyFlagCheck (h : AtStart found owed s) (i : BSlot) : AtStart found owed (s.keyFlagCheck i) := by
  rw [keyFlagCheck_clear h.unflagged]
  exact h

theorem AtStart.activate (h : AtStart found owed s) {i : BSlot} {k : Booking} (known : KnownLive found i k) : AtStart found owed (s.activate i k id) :=
  ((h.remember none none).transition known .active).activationEffects k

theorem AtStart.endBooking (h : AtStart found owed s) {i : BSlot} {k : Booking} (known : KnownLive found i k) (new : BState) :
    AtStart found owed (s.endBooking i k new) :=
  ((AtStart.ite (fun _ => h.remember none none) fun _ => h).transition known new).endingEffects

theorem AtStart.enterPending (h : AtStart found owed s) {i : BSlot} {k : Booking} (known : KnownLive found i k) : AtStart found owed (s.enterPending i k) :=
  (((h.remember none none).transition known .pending).emit _).refreshAgenda.keyFlagCheck i

theorem AtStart.enterAwaiting (h : AtStart found owed s) {i : BSlot} {k : Booking} (known : KnownLive found i k) : AtStart found owed (s.enterAwaiting i k) :=
  (((h.remember _ none).transition known .awaiting).emit _).refreshAgenda.keyFlagCheck i

theorem AtStart.beginBooking (h : AtStart found owed s) {i : BSlot} {k : Booking} (known : KnownLive found i k) : AtStart found owed (s.beginBooking i k) :=
  .ite (fun _ => (h.emit _).activate known) fun _ => h.enterAwaiting known

theorem AtStart.enterEnding (h : AtStart found owed s) {i : BSlot} {k : Booking} (known : KnownLive found i k) (grace : Nat) :
    AtStart found owed (s.enterEnding i k grace) :=
  ((h.remember none _).transition known .ending).refreshAgenda.emit _

/-! ## Evaluations and the catch-up -/

theorem AtStart.dueOfCurrent (h : AtStart found owed s) {i : BSlot} {k : Booking} (held : s.bks.bookings.get i = some k)
    (due : s.dueOfCurrent i k = some t) : AtStart found owed t := by
  unfold State.dueOfCurrent at due
  split at due
  case h_1 state =>
    split at due <;> cases due
    exact h.beginBooking (h.known held (by simp [state, isLive]))
  case h_2 state =>
    split at due <;> cases due
    exact h.endBooking (h.known held (by simp [state, isLive])) _
  case h_3 state =>
    have known := h.known held (by simp [state, isLive])
    split at due
    · split at due <;> cases due
      · exact h.enterEnding known _
      · exact h.endBooking known _
    · cases due
  case h_4 state =>
    split at due <;> cases due
    exact h.endBooking (h.known held (by simp [state, isLive])) _
  case h_5 => cases due

theorem AtStart.dueOfScheduled (h : AtStart found owed s) (due : s.dueOfScheduled = some t) : AtStart found owed t := by
  unfold State.dueOfScheduled at due
  split at due
  · cases due
  · rename_i i k rest first
    obtain ⟨held, asked⟩ := mem_byStart.mp (first ▸ List.mem_cons_self : (i, k) ∈ s.byStart s.isDue)
    simp only [State.isDue, Bool.and_eq_true, decide_eq_true_eq] at asked
    obtain ⟨⟨scheduled, -⟩, -⟩ := asked
    have known := h.known held (by simp [scheduled, isLive])
    split at due <;> cases due
    · exact h.enterPending known
    · exact h.beginBooking known

theorem AtStart.dueOnce (h : AtStart found owed s) (due : s.dueOnce = some t) : AtStart found owed t := by
  unfold State.dueOnce at due
  split at due
  · rename_i i k current
    exact h.dueOfCurrent (current_some_iff.mp current).2 due
  · exact h.dueOfScheduled due

theorem AtStart.evaluateFor (h : AtStart found owed s) (n : Nat) : AtStart found owed (evaluateFor n s) := by
  induction n generalizing s with
  | zero => exact h
  | succ n ih =>
    unfold Machine.evaluateFor
    split
    · rename_i u due
      exact ih (h.dueOnce due)
    · exact h

theorem AtStart.evaluate (h : AtStart found owed s) : AtStart found owed s.evaluate := .ite (fun _ => h.evaluateFor 160) fun _ => h

theorem AtStart.catchUpEnding (h : AtStart found owed s) {i : BSlot} {k : Booking} (known : KnownLive found i k) : AtStart found owed (s.catchUpEnding i k) :=
  have ending := ((h.remember none _).transition known .ending).emit [.wakeRequest .booking]
  (AtStart.ite (fun _ => ending) fun _ => ending.activationEffects k).refreshAgenda.emit _

theorem AtStart.enterDue (h : AtStart found owed s) {i : BSlot} {k : Booking} (known : KnownLive found i k) (due : BState) :
    AtStart found owed (s.enterDue i k due) := by
  cases due with
  | pending => exact h.enterPending known
  | awaiting => exact h.enterAwaiting known
  | active => exact (h.emit _).activate known
  | ending => exact h.catchUpEnding known
  | ended => exact h.endBooking known _
  | released => exact h.endBooking known _
  | scheduled => exact h
  | cancelled => exact h

theorem live_some_iff {b : Bks} {i : BSlot} {k : Booking} : b.live i = some k ↔ b.bookings.get i = some k ∧ isLive k.state = true := by
  unfold Bks.live
  cases b.bookings.get i with
  | none => simp
  | some c =>
    by_cases live : isLive c.state = true
    · simp only [live, if_true, Option.some.injEq]
      exact ⟨fun same => ⟨same, same ▸ live⟩, And.left⟩
    · simp only [live, Option.some.injEq]
      exact ⟨nofun, fun ⟨same, is⟩ => absurd (same ▸ is) live⟩

theorem AtStart.catchUpOne (h : AtStart found owed s) (start : Bool) (earlier : List BSlot) (i : BSlot) :
    AtStart found owed (s.catchUpOne start earlier i) := by
  unfold State.catchUpOne
  split
  · exact h
  · rename_i k held
    obtain ⟨held, live⟩ := live_some_iff.mp held
    have known := h.known held live
    exact .ite (fun _ => h.enterDue known _) fun _ => .ite (fun _ => .ite (fun _ => (h.transition known .scheduled).refreshAgenda) fun _ => h)
      fun _ => .ite (fun _ => h) fun _ => h.enterDue known _

theorem AtStart.catchUpOver (h : AtStart found owed s) (start : Bool) (earlier slots : List BSlot) :
    AtStart found owed (catchUpOver start earlier slots s) := by
  induction slots generalizing earlier s with
  | nil => exact h
  | cons i rest ih => exact ih (h.catchUpOne start earlier i) _

theorem AtStart.recall (h : AtStart found owed s) : AtStart found owed s.recall := by
  unfold State.recall
  split
  · exact h
  · exact h.remember _ _

theorem AtStart.catchUp (h : AtStart found owed s) (start : Bool) : AtStart found owed (s.catchUp start) := by
  have caught : AtStart found owed (if start then (Machine.catchUpOver start [] s.liveSlots s).recall else Machine.catchUpOver start [] s.liveSlots s) :=
    .ite (fun _ => (h.catchUpOver start _ _).recall) fun _ => h.catchUpOver start _ _
  exact .ite (fun _ => caught.evaluate) fun _ => caught

theorem AtStart.cancelOverlaps (h : AtStart found owed s) (taken : List Booking) {l : List (BSlot × Booking)}
    (known : ∀ a ∈ l, KnownLive found a.1 a.2) : AtStart found owed (cancelOverlaps taken l s) := by
  induction l generalizing taken s with
  | nil => exact h
  | cons a l ih =>
    have rest : ∀ a ∈ l, KnownLive found a.1 a.2 := fun b mem => known b (List.mem_cons_of_mem a mem)
    unfold Machine.cancelOverlaps
    exact .ite (fun _ => ih (h.transition (known a List.mem_cons_self) _) _ rest) fun _ => ih h _ rest

theorem AtStart.foldl {α : Type} {f : State → α → State} (step : ∀ u a, AtStart found owed u → AtStart found owed (f u a)) (l : List α)
    (h : AtStart found owed s) : AtStart found owed (l.foldl f s) := by
  induction l generalizing s with
  | nil => exact h
  | cons a l ih => exact ih (step s a h)

theorem AtStart.allScheduled (h : AtStart found owed s) : AtStart found owed s.allScheduled := by
  refine .foldl (fun u i hu => ?_) _ h
  split
  · rename_i k held
    obtain ⟨held, live⟩ := live_some_iff.mp held
    exact .ite (fun _ => hu) fun _ => hu.transition (hu.known held live) _
  · exact hu

theorem AtStart.takeUpCurrent (h : AtStart found owed s) : AtStart found owed s.takeUpCurrent := by
  unfold State.takeUpCurrent
  split
  · exact h
  · rename_i i k _
    have taken : AtStart found owed (if inMeeting k.state then (s.emit [.bookingCurrentReport true]).activationEffects k
        else s.emit [.bookingCurrentReport true]) := .ite (fun _ => (h.emit _).activationEffects k) fun _ => h.emit _
    exact .ite (fun _ => taken.emit _) fun _ => taken

theorem AtStart.startEvaluation (h : AtStart found owed s) : AtStart found owed s.startEvaluation := by
  have first := h.cancelOverlaps [] (l := s.byStart fun k => isLive k.state) fun a mem =>
    have ⟨held, live⟩ := mem_byStart.mp mem
    h.known held live
  have second : AtStart found owed (if (Machine.cancelOverlaps [] (s.byStart fun k => isLive k.state) s).msc.clock = .set then
      ((Machine.cancelOverlaps [] (s.byStart fun k => isLive k.state) s).catchUp true).takeUpCurrent
      else (Machine.cancelOverlaps [] (s.byStart fun k => isLive k.state) s).allScheduled) :=
    .ite (fun _ => (first.catchUp true).takeUpCurrent) fun _ => first.allScheduled
  unfold State.startEvaluation State.tellSeating
  exact (((AtStart.ite (fun _ => second.emit _) fun _ => second).agendaSent _).emit _).emit _

end

end Sys2Proof.Machine
end

section
/-! PROOF. The start-up sequence (R133, R134, R174, R175): what the scan of the store finds, and what RESET makes of the part. -/

namespace Sys2Proof.Machine

open Sys2Proof

/-! ## The store after a reset (R133, R134) -/

/-- A slot was being written. -/
def writes (w : Option WriteInFlight) (k : StoreSlot) : Bool := w.any fun w => w.slot = k

theorem tear_bookings (d : Durable) (w : Option WriteInFlight) (i : BSlot) :
    (d.tear w).bookings.get i = if writes w (.booking i) then .torn else d.bookings.get i := by
  rcases w with _ | ⟨slot, image, again⟩
  · rfl
  · cases slot with
    | booking j => simp [Durable.tear, writes, Tab.get_upd, eq_comm]
    | participant p => rfl
    | settings => rfl

theorem tear_participants (d : Durable) (w : Option WriteInFlight) (p : PIdx) :
    (d.tear w).participants.get p = if writes w (.participant p) then .torn else d.participants.get p := by
  rcases w with _ | ⟨slot, image, again⟩
  · rfl
  · cases slot with
    | booking j => rfl
    | participant q => simp [Durable.tear, writes, Tab.get_upd, eq_comm]
    | settings => rfl

theorem tear_settings (d : Durable) (w : Option WriteInFlight) : (d.tear w).settings = if writes w .settings then .torn else d.settings := by
  rcases w with _ | ⟨slot, image, again⟩
  · rfl
  · cases slot <;> rfl

/-- A content that was torn, or that the reset tore. -/
theorem torn_or {α : Type} (w : Bool) (image : Image α) [Decidable (image = .torn)] :
    (if w then .torn else image) = if w || decide (image = .torn) then .torn else image := by
  cases w with
  | true => rfl
  | false =>
    by_cases torn : image = .torn
    · simp [torn]
    · simp [torn]

theorem isTorn_torn_or {α : Type} (w : Bool) (image : Image α) [Decidable (image = .torn)] :
    (if w || decide (image = .torn) then .torn else image).isTorn = (w || decide (image = .torn)) := by
  cases image <;> cases w <;> simp [Image.isTorn]

theorem scanned_ite {α : Type} (torn : Bool) (image : Image α) (fallback : α) : (if torn then .torn else image).scanned fallback =
    if torn then fallback else image.scanned fallback := by
  cases torn <;> rfl

section
variable (b : Bks)

/-- The durable contents that the scan reads (R133). -/
def Bks.torn : Durable := b.durable.tear b.writing

theorem torn_bookings (i : BSlot) : b.torn.bookings.get i = if tornAtReset b (.booking i) then .torn else b.durable.bookings.get i :=
  (tear_bookings ..).trans (torn_or ..)

theorem torn_participants (p : PIdx) :
    b.torn.participants.get p = if tornAtReset b (.participant p) then .torn else b.durable.participants.get p :=
  (tear_participants ..).trans (torn_or ..)

theorem torn_settings : b.torn.settings = if tornAtReset b .settings then .torn else b.durable.settings :=
  (tear_settings ..).trans (torn_or ..)

theorem isTorn_booking (i : BSlot) : (b.torn.bookings.get i).isTorn = tornAtReset b (.booking i) := by
  rw [torn_bookings]
  exact isTorn_torn_or ..

theorem isTorn_participant (p : PIdx) : (b.torn.participants.get p).isTorn = tornAtReset b (.participant p) := by
  rw [torn_participants]
  exact isTorn_torn_or ..

theorem isTorn_settings : b.torn.settings.isTorn = tornAtReset b .settings := by
  rw [torn_settings]
  exact isTorn_torn_or ..

/-- The torn slots in ascending order (R134). -/
theorem tornSlots_eq : b.torn.tornSlots = storeSlots.filter (tornAtReset b) := by
  unfold Durable.tornSlots storeSlots
  rw [List.filter_append, List.filter_append, List.filter_map, List.filter_map, isTorn_settings]
  simp only [isTorn_booking, isTorn_participant, Function.comp_def, List.filter_cons, List.filter_nil]

theorem scan_bookings (i : BSlot) : b.torn.scan.bookings.get i = foundBooking b i := by
  have scanned : b.torn.scan.bookings.get i = (b.torn.bookings.get i).scanned none := Tab.get_gen _ i
  rw [scanned, torn_bookings, scanned_ite]
  unfold foundBooking
  cases b.durable.bookings.get i <;> rfl

theorem scan_participants (p : PIdx) : b.torn.scan.participants.get p = foundParticipant b p := by
  have scanned : b.torn.scan.participants.get p = (b.torn.participants.get p).scanned none := Tab.get_gen _ p
  rw [scanned, torn_participants, scanned_ite]
  unfold foundParticipant
  cases b.durable.participants.get p <;> rfl

theorem scan_settings : b.torn.scan.saveImage = foundSettings b := by
  have scanned : b.torn.scan.saveImage = b.torn.settings.scanned Settings.factory := rfl
  rw [scanned, torn_settings, scanned_ite]
  unfold foundSettings
  cases b.durable.settings <;> rfl

/-- The participants that the scan finds empty (R134). -/
def Bks.lost (p : PIdx) : Bool := !b.torn.scan.holds p

theorem scan_eq : b.scan = b.torn.scan.forget b.lost allBSlots := rfl

theorem withoutParticipants_lost (k : Booking) : withoutParticipants b.lost k = withoutEmpty b k := by
  have kept : ∀ p, (!b.lost p) = decide (foundParticipant b p ≠ none) := fun p => by
    rw [Bks.lost, Bks.holds, scan_participants]
    cases foundParticipant b p <;> rfl
  unfold withoutParticipants withoutEmpty
  simp only [kept]

theorem scan_record (i : BSlot) : b.scan.bookings.get i = (foundBooking b i).map (withoutEmpty b) := by
  have nodup : allBSlots.Nodup := List.nodup_finRange 32
  have mem : i ∈ allBSlots := List.mem_finRange i
  rw [scan_eq, forget_get _ nodup, if_pos mem, scan_bookings, funext (withoutParticipants_lost b)]

end

/-- The bookings that lose a reference join the tail of the queue in their order, where the store is held and nothing is owed them yet. -/
theorem forget_held (gone : PIdx → Bool) {slots : List BSlot} (nodup : slots.Nodup) {b : Bks} (idle : b.writing = none) (held : b.supplyHeld = true)
    (fresh : ∀ i ∈ slots, b.bookings.get i ≠ (b.bookings.get i).map (withoutParticipants gone) → .booking i ∉ b.queue) :
    (b.forget gone slots).writing = none ∧ (b.forget gone slots).queue =
      b.queue ++ (slots.filter fun i => b.bookings.get i ≠ (b.bookings.get i).map (withoutParticipants gone)).map .booking := by
  induction slots generalizing b with
  | nil => exact ⟨idle, (List.append_nil _).symm⟩
  | cons j slots ih =>
    obtain ⟨once, nodup⟩ := List.nodup_cons.mp nodup
    have step : b.forget gone (j :: slots) = (b.setBooking j ((b.bookings.get j).map (withoutParticipants gone))).forget gone slots := rfl
    have store := setBooking_held idle held j ((b.bookings.get j).map (withoutParticipants gone))
    have others : ∀ i ∈ slots, (b.setBooking j ((b.bookings.get j).map (withoutParticipants gone))).bookings.get i = b.bookings.get i := fun i mem => by
      rw [setBooking_get, if_neg fun here : i = j => once (here ▸ mem)]
    have same : (slots.filter fun i => (b.setBooking j ((b.bookings.get j).map (withoutParticipants gone))).bookings.get i ≠
        ((b.setBooking j ((b.bookings.get j).map (withoutParticipants gone))).bookings.get i).map (withoutParticipants gone)) =
        slots.filter fun i => b.bookings.get i ≠ (b.bookings.get i).map (withoutParticipants gone) :=
      List.filter_congr fun i mem => by rw [others i mem]
    have queue : (b.setBooking j ((b.bookings.get j).map (withoutParticipants gone))).queue =
        b.queue ++ if b.bookings.get j = (b.bookings.get j).map (withoutParticipants gone) then [] else [.booking j] := by
      rw [store]
      dsimp only
      by_cases kept : b.bookings.get j = (b.bookings.get j).map (withoutParticipants gone)
      · rw [if_pos (.inl kept), if_pos kept, List.append_nil]
      · rw [if_neg (not_or.mpr ⟨kept, fresh j List.mem_cons_self kept⟩), if_neg kept]
    have later : ∀ i ∈ slots, (b.setBooking j ((b.bookings.get j).map (withoutParticipants gone))).bookings.get i ≠
        ((b.setBooking j ((b.bookings.get j).map (withoutParticipants gone))).bookings.get i).map (withoutParticipants gone) →
        .booking i ∉ (b.setBooking j ((b.bookings.get j).map (withoutParticipants gone))).queue := fun i mem changed => by
      rw [others i mem] at changed
      rw [queue, List.mem_append, not_or]
      refine ⟨fresh i (List.mem_cons_of_mem j mem) changed, ?_⟩
      split
      · exact List.not_mem_nil
      · exact fun here => once (StoreSlot.booking.inj (List.mem_singleton.mp here) ▸ mem)
    obtain ⟨writing, queued⟩ := ih nodup (by rw [store]; exact idle) (by rw [store]; exact held) later
    rw [step]
    refine ⟨writing, ?_⟩
    rw [queued, same, queue, List.append_assoc, List.filter_cons]
    by_cases kept : b.bookings.get j = (b.bookings.get j).map (withoutParticipants gone)
    · rw [if_pos kept, if_neg (by simpa using kept), List.nil_append]
    · rw [if_neg kept, if_pos (by simpa using kept), List.map_cons, List.singleton_append]

/-- The store as the scan leaves it: the torn slots and then the changed bookings are owed a write, and the store is held (R130, R134). -/
theorem scan_owed (b : Bks) : b.scan.writing = none ∧ b.scan.supplyHeld = true ∧ b.scan.queue = storeSlots.filter (tornAtReset b) ++
    (allBSlots.filter fun i => (foundBooking b i).any fun k => withoutEmpty b k ≠ k).map .booking := by
  have start : b.torn.scan.queue = storeSlots.filter (tornAtReset b) := tornSlots_eq b
  have fresh : ∀ i ∈ allBSlots, b.torn.scan.bookings.get i ≠ (b.torn.scan.bookings.get i).map (withoutParticipants b.lost) →
      .booking i ∉ b.torn.scan.queue := fun i _ changed torn => by
    rw [start] at torn
    have none_ : foundBooking b i = none := if_pos (List.mem_filter.mp torn).2
    rw [scan_bookings, none_] at changed
    exact changed rfl
  obtain ⟨writing, queue⟩ := forget_held b.lost (slots := allBSlots) (List.nodup_finRange 32) rfl rfl fresh
  refine ⟨writing, ?_, ?_⟩
  · rw [scan_eq, forget_eq]
    rfl
  · have changed : (allBSlots.filter fun i => b.torn.scan.bookings.get i ≠ (b.torn.scan.bookings.get i).map (withoutParticipants b.lost)) =
        allBSlots.filter fun i => (foundBooking b i).any fun k => withoutEmpty b k ≠ k := List.filter_congr fun i _ => by
      rw [scan_bookings, funext (withoutParticipants_lost b)]
      cases foundBooking b i with
      | none => simp
      | some k => simp [eq_comm]
    rw [scan_eq, queue, start, changed]

/-! ## The start-up sequence (R174, R175) -/

/-- Steps 3 and 4 change the screens' contents, the lines, the clock and the reports alone. -/
theorem clocked_keeps (s : State) (roomRuns : Bool) : let t := s.clocked roomRuns
    t.settings = s.settings ∧ t.flc = s.flc ∧ t.mix = s.mix ∧ t.vdt = s.vdt ∧ t.cph = s.cph ∧ t.pending = s.pending ∧ t.bks = s.bks ∧ t.tbc = s.tbc ∧
      t.pcu = s.pcu := by
  unfold State.clocked
  split
  · exact ⟨rfl, rfl, rfl, rfl, rfl, rfl, rfl, rfl, rfl⟩
  · unfold State.loseClock
    dsimp only
    split
    · exact ⟨rfl, rfl, rfl, rfl, rfl, rfl, rfl, rfl, rfl⟩
    · exact ⟨rfl, rfl, rfl, rfl, rfl, rfl, rfl, rfl, rfl⟩

theorem clocked_shares (s : State) (roomRuns : Bool) : (s.clocked roomRuns).scr.shares = s.scr.shares := by
  unfold State.clocked
  split
  · rfl
  · unfold State.loseClock
    dsimp only
    split <;> rfl

/-- A clock that was not kept is not set by steps 3 and 4 (R136, R174). -/
theorem clocked_clock {s : State} (unset : s.msc.clock ≠ .set) (roomRuns : Bool) : (s.clocked roomRuns).msc.clock ≠ .set := by
  unfold State.clocked
  split
  · exact unset
  · unfold State.loseClock
    dsimp only
    split
    · exact unset
    · exact nofun

theorem started_keeps (s : State) : s.started.settings = s.settings ∧ s.started.flc = s.flc ∧ s.started.mix = s.mix ∧ s.started.vdt = s.vdt ∧
    s.started.cph = s.cph ∧ s.started.pending = s.pending ∧ s.started.bks = s.bks ∧ s.started.tbc = s.tbc ∧ s.started.scr = s.scr ∧
    s.started.msc = s.msc := by
  unfold State.started
  split
  · exact ⟨rfl, rfl, rfl, rfl, rfl, rfl, rfl, rfl, rfl, rfl⟩
  · exact ⟨rfl, rfl, rfl, rfl, rfl, rfl, rfl, rfl, rfl, rfl⟩

theorem ScheduleFrame.keeps {s t : State} (frame : ScheduleFrame s t) : t.settings = s.settings ∧ t.flc = s.flc ∧ t.mix = s.mix ∧ t.vdt = s.vdt ∧
    t.cph = s.cph ∧ t.pending = s.pending ∧ t.scr = s.scr ∧ t.pcu = s.pcu := by
  unfold ScheduleFrame at frame
  exact ⟨by rw [frame], by rw [frame], by rw [frame], by rw [frame], by rw [frame], by rw [frame], by rw [frame], by rw [frame]⟩

theorem Scheduled.storeOf {s t : State} (h : Scheduled s t) {b : Bks} (found : s.bks = b) :
    t.bks = { b with bookings := t.bks.bookings, queue := t.bks.queue, writing := t.bks.writing } := found ▸ h.store

/-- The Power and Clock Unit told whether a booking is current (R174). -/
def State.toldCurrent (s : State) : State := { s with pcu := { s.pcu with bookingCurrent := s.currentSlot.isSome } }

theorem scheduled_eq (s : State) : s.scheduled = s.startEvaluation.toldCurrent := rfl

/-- Step 5 changes the bookings, the clock's memory, the bus's flags, the reports, and the fact that a booking is current (R174). -/
theorem scheduled_keeps (s : State) : s.scheduled.settings = s.settings ∧ s.scheduled.flc = s.flc ∧ s.scheduled.mix = s.mix ∧ s.scheduled.vdt = s.vdt ∧
    s.scheduled.cph = s.cph ∧ s.scheduled.pending = s.pending ∧ s.scheduled.scr = s.scr ∧
    s.scheduled.pcu = { s.pcu with bookingCurrent := s.scheduled.pcu.bookingCurrent } ∧
    s.scheduled.bks = s.startEvaluation.bks ∧ s.scheduled.tbc = s.startEvaluation.tbc ∧ s.scheduled.msc = s.startEvaluation.msc := by
  obtain ⟨settings, flc, mix, vdt, cph, pending, scr, pcu⟩ := (Scheduled.refl s).startEvaluation.frame.keeps
  rw [scheduled_eq]
  generalize s.startEvaluation = u at *
  refine ⟨settings, flc, mix, vdt, cph, pending, scr, ?_, rfl, rfl, rfl⟩
  rw [← pcu]
  rfl

/-- Step 6: the state in which the room starts (R174). -/
theorem started_power (s : State) : PowerTold s.started s.pcu.power (if s.settings.startState = .quiet ∧ s.pcu.bookingCurrent = false then .quiet else .waking) .start ∧
    s.started.pcu = if s.settings.startState = .quiet ∧ s.pcu.bookingCurrent = false then
        { s.pcu with idle := none, sleep := sleepStarted s.settings.sleepDelay, power := some .quiet, phase := none, keptPower := some .quiet }
      else { s.pcu with power := some .waking, phase := some .powerSettle, keptPower := some .waking } := by
  unfold State.started
  split
  · exact ⟨enterQuiet_told s .start, rfl⟩
  · exact ⟨setPower_told s .waking (some .powerSettle) .start, rfl⟩

section
variable (d : ResetDetectors) (roomRuns : Bool) (s : State)

/-- The part after steps 1 to 4 of the start-up sequence. -/
def State.atStart : State := (s.loaded d roomRuns).clocked roomRuns

/-- The store and the bus as the start evaluation comes upon them (R134, R156). -/
theorem atStart_found : AtStart s.bks.scan.bookings s.bks.scan.queue (s.atStart d roomRuns) := by
  obtain ⟨writing, held, -⟩ := scan_owed s.bks
  have loaded : AtStart s.bks.scan.bookings s.bks.scan.queue (s.loaded d roomRuns) := by
    refine ⟨fun x => ?_, writing, held, fun i => .refl _, List.prefix_rfl⟩
    have seat : (s.loaded d roomRuns).tbc.seats.get x = {} := Tab.get_all _ x
    rw [seat]
    rfl
  obtain ⟨-, -, -, -, -, -, bks, tbc, -⟩ := clocked_keeps (s.loaded d roomRuns) roomRuns
  exact loaded.same bks tbc

/-- What the start-up sequence leaves of the part beside the power unit, the screens' contents, the lines and the clock (R174). -/
theorem reset_leaves : let t := (s.atStart d roomRuns).scheduled.started
    t.settings = (s.loaded d roomRuns).settings ∧ t.flc = (s.loaded d roomRuns).flc ∧ t.mix = (s.loaded d roomRuns).mix ∧
      t.vdt = (s.loaded d roomRuns).vdt ∧ t.cph = (s.loaded d roomRuns).cph ∧ t.pending = (s.loaded d roomRuns).pending ∧
      t.scr.shares = (s.loaded d roomRuns).scr.shares ∧ t.bks = (s.atStart d roomRuns).startEvaluation.bks ∧
      t.tbc = (s.atStart d roomRuns).startEvaluation.tbc ∧ t.msc = (s.atStart d roomRuns).startEvaluation.msc := by
  obtain ⟨settings, flc, mix, vdt, cph, pending, bks, tbc, scr, msc⟩ := started_keeps (s.atStart d roomRuns).scheduled
  obtain ⟨settings', flc', mix', vdt', cph', pending', scr', -, bks', tbc', msc'⟩ := scheduled_keeps (s.atStart d roomRuns)
  obtain ⟨settings'', flc'', mix'', vdt'', cph'', pending'', -⟩ := clocked_keeps (s.loaded d roomRuns) roomRuns
  have shares : (s.atStart d roomRuns).scr.shares = (s.loaded d roomRuns).scr.shares := clocked_shares ..
  exact ⟨(settings.trans settings').trans settings'', (flc.trans flc').trans flc'', (mix.trans mix').trans mix'', (vdt.trans vdt').trans vdt'',
    (cph.trans cph').trans cph'', (pending.trans pending').trans pending'', ((congrArg Scr.shares (scr.trans scr') :)).trans shares, bks.trans bks', tbc.trans tbc', msc.trans msc'⟩

/-- The power unit before the room's first state (R174, R175). -/
theorem reset_pcu : (s.atStart d roomRuns).scheduled.pcu =
    { s.pcuAtStart d roomRuns with bookingCurrent := (s.atStart d roomRuns).scheduled.pcu.bookingCurrent } := by
  obtain ⟨-, -, -, -, -, -, -, fact, -⟩ := scheduled_keeps (s.atStart d roomRuns)
  obtain ⟨-, -, -, -, -, -, -, -, pcu⟩ := clocked_keeps (s.loaded d roomRuns) roomRuns
  have start : (s.atStart d roomRuns).pcu = s.pcuAtStart d roomRuns := pcu
  rw [start] at fact
  exact fact

/-- The store after the start evaluation, beside its bookings and its queue (R130, R134). -/
theorem reset_store : (s.atStart d roomRuns).startEvaluation.bks = { s.bks.scan with
    bookings := (s.atStart d roomRuns).startEvaluation.bks.bookings, queue := (s.atStart d roomRuns).startEvaluation.bks.queue
    writing := (s.atStart d roomRuns).startEvaluation.bks.writing } := by
  obtain ⟨-, -, -, -, -, -, bks, -⟩ := clocked_keeps (s.loaded d roomRuns) roomRuns
  exact (Scheduled.refl (s.atStart d roomRuns)).startEvaluation.storeOf (bks.trans (loaded_bks s d roomRuns))

theorem scan_durable (b : Bks) : b.scan.durable = b.torn ∧ b.scan.saveImage = foundSettings b ∧ b.scan.waiters = [] ∧
    ∀ p, b.scan.participants.get p = foundParticipant b p := by
  rw [scan_eq, forget_eq]
  exact ⟨rfl, scan_settings b, rfl, scan_participants b⟩

theorem exec_reset_started : exec (.reset d roomRuns) s = .next (s.atStart d roomRuns).scheduled.started := exec_reset s d roomRuns

/-- The bookings, the queue and the contents of the store after RESET (R133, R134). -/
theorem reset_found : let t := (s.atStart d roomRuns).scheduled.started
    t.bks.saveImage = foundSettings s.bks ∧ (∀ p, t.bks.participants.get p = foundParticipant s.bks p) ∧ t.bks.durable = s.bks.torn ∧ t.bks.waiters = [] ∧
      t.bks.writing = none ∧ t.bks.supplyHeld = true ∧ s.bks.scan.queue <+: t.bks.queue ∧
      ∀ i, Restated ((foundBooking s.bks i).map (withoutEmpty s.bks)) (t.bks.bookings.get i) := by
  dsimp only
  obtain ⟨-, -, -, -, -, -, -, bks, -⟩ := reset_leaves d roomRuns s
  obtain ⟨durable, saved, waiters, participants⟩ := scan_durable s.bks
  obtain ⟨-, idle, held, records, owed⟩ := (atStart_found d roomRuns s).startEvaluation
  have store := reset_store d roomRuns s
  rw [bks]
  generalize (s.atStart d roomRuns).startEvaluation = e at *
  have kept : e.bks.saveImage = s.bks.scan.saveImage ∧ e.bks.participants = s.bks.scan.participants ∧ e.bks.durable = s.bks.scan.durable ∧
      e.bks.waiters = s.bks.scan.waiters := ⟨by rw [store], by rw [store], by rw [store], by rw [store]⟩
  obtain ⟨saved', participants', durable', waiters'⟩ := kept
  refine ⟨saved'.trans saved, fun p => ?_, durable'.trans durable, waiters'.trans waiters, idle, held, owed, fun i => ?_⟩
  · rw [participants']
    exact participants p
  · rw [← scan_record]
    exact records i

theorem atStart_clock (other : d ≠ .pin) : (s.atStart d roomRuns).startEvaluation.msc.clock ≠ .set := by
  obtain ⟨same, -⟩ := (Scheduled.refl (s.atStart d roomRuns)).startEvaluation.clock
  rw [same]
  refine clocked_clock ?_ roomRuns
  have lost : ranThroughout d s.pcu.stopLatch roomRuns = false := by
    cases d with
    | pin => exact absurd rfl other
    | power => rfl
    | powerAndSupply => rfl
    | supply => rfl
  have clock : (s.loaded d roomRuns).msc = s.msc.atStart (ranThroughout d s.pcu.stopLatch roomRuns) := by simp only [State.loaded]
  rw [clock, lost]
  exact nofun

/-- The start state, with the records the power unit has of the start (R174, R175). -/
theorem reset_power : let t := (s.atStart d roomRuns).scheduled.started
    t.pcu.start = s.startRecord d ∧ t.pcu.room = (if roomRuns then .running else .stopped) ∧ t.pcu.stopLatch = false ∧
    .notice .power (powerPayload none t.pcu.power .start) ∈ t.flight ∧
    ((t.pcu.power = some .quiet ∧ t.settings.startState = .quiet ∧ t.pcu.bookingCurrent = false) ∨
      (t.pcu.power = some .waking ∧ t.pcu.phase = some .powerSettle ∧ t.pcu.audio = .settling ∧
        (t.settings.startState = .full ∨ t.pcu.bookingCurrent = true))) := by
  dsimp only
  have fact := reset_pcu d roomRuns s
  obtain ⟨settings, -⟩ := started_keeps (s.atStart d roomRuns).scheduled
  obtain ⟨told, power⟩ := started_power (s.atStart d roomRuns).scheduled
  rw [settings]
  generalize (s.atStart d roomRuns).scheduled = v at *
  have unpowered : v.pcu.power = none := by rw [fact]; rfl
  rw [unpowered] at told
  have start : v.pcu.start = s.startRecord d ∧ v.pcu.room = (if roomRuns then .running else .stopped) ∧ v.pcu.stopLatch = false ∧
      v.pcu.audio = .settling := ⟨by rw [fact]; rfl, by rw [fact]; rfl, by rw [fact]; rfl, by rw [fact]; rfl⟩
  obtain ⟨record, room, latch, audio⟩ := start
  by_cases quiet : v.settings.startState = .quiet ∧ v.pcu.bookingCurrent = false
  · rw [if_pos quiet] at told power
    rw [power]
    refine ⟨record, room, latch, ?_, .inl ⟨rfl, quiet⟩⟩
    exact told
  · rw [if_neg quiet] at told power
    rw [power]
    refine ⟨record, room, latch, told, .inr ⟨rfl, rfl, audio, ?_⟩⟩
    cases state : v.settings.startState with
    | full => exact .inl rfl
    | quiet => exact .inr (by simpa [state] using quiet)

/-- The floor, the engine, the detector, the screens and the ports as their chapters give them after a reset (R174). -/
theorem loaded_blocks : (s.loaded d roomRuns).settings = foundSettings s.bks ∧
    (s.loaded d roomRuns).flc = { mode := (foundSettings s.bks).defaultMode, limit := (foundSettings s.bks).defaultLimit } ∧
    (∀ x, ((s.loaded d roomRuns).mix.seats.get x).applied = .mute ∧ ((s.loaded d roomRuns).mix.seats.get x).target = .mute) ∧
    (∀ x, ((s.loaded d roomRuns).vdt.seats.get x).state = .quiet) ∧ (s.loaded d roomRuns).scr.shares = [] ∧
    (∀ p, (s.loaded d roomRuns).cph.ports.get p = {}) ∧ (s.loaded d roomRuns).cph.holder = {} ∧ (s.loaded d roomRuns).pending = s.pending := by
  obtain ⟨-, saved, -⟩ := scan_durable s.bks
  unfold State.loaded
  dsimp only
  rw [saved]
  refine ⟨rfl, rfl, fun x => ?_, fun x => ?_, rfl, fun p => Tab.get_all _ p, rfl, rfl⟩
  · rw [Tab.get_all]
    exact ⟨rfl, rfl⟩
  · have seat : ({} : Vdt).seats.get x = {} := Tab.get_all _ x
    rw [seat]

/-- The seats of the table bus after RESET (R8, R174). -/
theorem reset_presence (x : Seat) : ((s.atStart d roomRuns).startEvaluation.tbc.seats.get x).presence = .absent := by
  have seat := (Scheduled.refl (s.atStart d roomRuns)).startEvaluation.seats x
  obtain ⟨-, -, -, -, -, -, -, tbc, -⟩ := clocked_keeps (s.loaded d roomRuns) roomRuns
  have start : (s.atStart d roomRuns).tbc.seats.get x = {} := by
    rw [State.atStart, tbc]
    exact Tab.get_all _ x
  rw [seat, start]

theorem found_slot {b : Bks} {i : BSlot} {now : Option Booking} (h : Restated ((foundBooking b i).map (withoutEmpty b)) now) :
    (foundBooking b i = none → now = none) ∧ ∀ k, foundBooking b i = some k → ∃ st e,
      now = some { withoutEmpty b k with state := st, actualEnd := e } ∧ (isLive k.state = false → st = k.state ∧ e = k.actualEnd) :=
  ⟨fun none_ => h.free (by rw [none_]; rfl), fun k found => h.moved (withoutEmpty b k) (by rw [found]; rfl)⟩

end

/-- Settles O52. -/
theorem resetStartsThePart : Obligations.ResetStartsThePart := by
  intro d roomRuns s
  obtain ⟨settings, flc, mix, vdt, cph, pending, shares, -, tbc, msc⟩ := reset_leaves d roomRuns s
  obtain ⟨saved, participants, durable, waiters, writing, held, owed, records⟩ := reset_found d roomRuns s
  obtain ⟨record, room, latch, told, power⟩ := reset_power d roomRuns s
  obtain ⟨settings', flc', mix', vdt', shares', ports, holder, pending'⟩ := loaded_blocks d roomRuns s
  obtain ⟨-, -, queue⟩ := scan_owed s.bks
  have presence := reset_presence d roomRuns s
  have clock := atStart_clock d roomRuns s
  refine ⟨_, exec_reset_started d roomRuns s, ?_⟩
  generalize (s.atStart d roomRuns).startEvaluation = e at *
  generalize (s.atStart d roomRuns).scheduled.started = t at *
  have found := settings.trans settings'
  have floor := flc.trans flc'
  rw [queue] at owed
  refine ⟨found, saved.trans found.symm, pending.trans pending', participants, fun i => (found_slot (records i)).1, fun i => (found_slot (records i)).2,
    fun i => ?bookings, fun p => ?participants, ?settings, owed, fun x => ?seats, ?speakers, ?queue, ?overrides, ?mode, ?limit, shares.trans shares',
    held, writing, waiters, fun p => ?ports, ?holder, ?cause, ?torn, ?asleep, told, room, latch, power, fun other => msc ▸ clock other⟩
  case bookings => rw [durable, torn_bookings]
  case participants => rw [durable, torn_participants]
  case settings => rw [durable, torn_settings]
  case seats =>
    have seat : t.flc.seats.get x = {} := by rw [floor]; exact Tab.get_all _ x
    rw [tbc, mix, vdt, seat]
    exact ⟨presence x, rfl, rfl, (mix' x).1, (mix' x).2, vdt' x⟩
  case speakers => rw [floor]
  case queue => rw [floor]
  case overrides => rw [floor]
  case mode => rw [floor, found]
  case limit => rw [floor, found]
  case ports =>
    have port : t.port p = t.cph.ports.get p := rfl
    rw [port, cph]
    exact ports p
  case holder => rw [cph, holder]
  case cause =>
    rw [record]
    cases d <;> rfl
  case torn =>
    rw [record, ← tornSlots_eq]
    rfl
  case asleep =>
    rw [record]
    cases d <;> rfl

end Sys2Proof.Machine
end
